-- ==== Sys2Proof/Word.lean ====
section
/-! DEFINITION. The two widths of the block: a byte of IBUF and a 32-bit CSR, DTAB or header word (R8, R24, R90). -/

namespace Sys2Proof

/-- One byte of IBUF (R40). -/
abbrev Byte := BitVec 8

/-- One CSR, one DTAB word or one header word (R24, R38, R90). -/
abbrev Word := BitVec 32

end Sys2Proof
end

