-- ==== Sys2Proof/Syntax.lean ====
section
/-! DEFINITION. What the block is told: header words and commands (`Instr`, one constructor per row of
spec/opcode_table.json), the host's accesses (20_memory.md), and the names they use. -/

namespace Sys2Proof

/-- The error codes of R300, by name; their numbers are `ErrCode.code` (Machine/Flags.lean). -/
inductive ErrCode where
  | ok
  | invalidHeader
  | packetTooShort
  | wrongType
  | badLength
  | unknownType
  | contentError
  | lengthOverflow
  deriving DecidableEq, Repr, Inhabited

/-- The packet classes of R140; their tag numbers are `PacketClass.tag` (Machine/Flags.lean). -/
inductive PacketClass where
  | sr
  | rr
  | sdes
  | bye
  | app
  | tlfbNack
  | psfbPli
  | psfbFir
  | psfbRrr
  | xr
  deriving DecidableEq, Repr, Inhabited

/-- The five fields of a header word (R90). -/
structure Header where
  v : BitVec 2
  p : BitVec 1
  c : BitVec 5
  pt : BitVec 8
  l : BitVec 16
  deriving DecidableEq, Repr, Inhabited

/-- The instructions: the 13 classes of header words (R142 to R154) with the fields their row leaves free, and the three
host commands (R170, R232, R233). -/
inductive Instr where
  /-- Sender Report, PT 200 (R142). -/
  | sr (v : BitVec 2) (p : BitVec 1) (c : BitVec 5) (l : BitVec 16)
  /-- Receiver Report, PT 201 (R143). -/
  | rr (v : BitVec 2) (p : BitVec 1) (c : BitVec 5) (l : BitVec 16)
  /-- Source Description, PT 202 (R144). -/
  | sdes (v : BitVec 2) (p : BitVec 1) (c : BitVec 5) (l : BitVec 16)
  /-- Goodbye, PT 203 (R145). -/
  | bye (v : BitVec 2) (p : BitVec 1) (c : BitVec 5) (l : BitVec 16)
  /-- Application-Defined, PT 204 (R146). -/
  | app (v : BitVec 2) (p : BitVec 1) (c : BitVec 5) (l : BitVec 16)
  /-- Generic NACK, PT 205 format 1 (R147). -/
  | tlfbNack (v : BitVec 2) (p : BitVec 1) (l : BitVec 16)
  /-- Picture Loss Indication, PT 206 format 1 (R148). -/
  | psfbPli (v : BitVec 2) (p : BitVec 1) (l : BitVec 16)
  /-- Full Intra Request; its format code depends on FB_FORMAT_MAP (R149). -/
  | psfbFir (v : BitVec 2) (p : BitVec 1) (l : BitVec 16)
  /-- Rapid Resynchronization Request; its type and format code depend on FB_FORMAT_MAP (R150). -/
  | psfbRrr (v : BitVec 2) (p : BitVec 1) (l : BitVec 16)
  /-- Extended Report, PT 207 (R151). -/
  | xr (v : BitVec 2) (p : BitVec 1) (c : BitVec 5) (l : BitVec 16)
  /-- PT 205 with a format no class is registered for (R152). -/
  | tlfbUnregistered (v : BitVec 2) (p : BitVec 1) (c : BitVec 5) (l : BitVec 16)
  /-- PT 206 with a format no class is registered for (R153). -/
  | psfbUnregistered (v : BitVec 2) (p : BitVec 1) (c : BitVec 5) (l : BitVec 16)
  /-- A Packet Type outside 200 to 207 (R154). -/
  | unknownPt (v : BitVec 2) (p : BitVec 1) (c : BitVec 5) (pt : BitVec 8) (l : BitVec 16)
  /-- START: CTRL written with bit 0 set; the operand is bit 1 of the written value (R170). -/
  | start (frameOnly : Bool)
  /-- ENC_CLEAR: ENC_CTRL written with bit 0 set (R232). -/
  | encClear
  /-- ENC_APPEND(S): ENC_SIZE written with S (R233). -/
  | encAppend (size : Word)
  deriving DecidableEq, Repr

/-- How an instruction reaches the block: a header word in IBUF, or a 32-bit write to a CSR offset (R90, R100). -/
inductive Encoding where
  | header (w : Word)
  | csrWrite (off : BitVec 8) (value : Word)
  deriving DecidableEq, Repr

/-- Why the decoder rejects an encoding. -/
inductive DecodeReject where
  /-- Fewer than four bytes where a header is expected (R120). -/
  | invalidHeader
  /-- A CSR write that performs no command: it only stores a field or has no effect (R100). -/
  | notACommand
  deriving DecidableEq, Repr

/-- One native access of the host (R61): a 32-bit CSR access, an IBUF byte access or a 32-bit DTAB access. -/
inductive Access where
  | csrRead (off : BitVec 8)
  | csrWrite (off : BitVec 8) (value : Word)
  | ibufRead (addr : Nat)
  | ibufWrite (addr : Nat) (value : Byte)
  | dtabRead (off : Nat)
  | dtabWrite (off : Nat) (value : Word)
  deriving DecidableEq, Repr

/-- An access as it stands on the host's bus, before HOST_MAP says what it means to the block (R61, R63, R65): its bus
address, its width in bytes, and the written value with its byte lanes, none for a read. -/
structure BusAccess where
  addr : Nat
  width : Nat
  data : Option Nat
  deriving DecidableEq, Repr

/-- What HOST_MAP lets a bus access do next (R61, R63, log 7). -/
inductive BusStep where
  /-- Perform one more native access. -/
  | native (a : Access)
  /-- End the access; a read returns these 32-bit pieces, its byte lanes laid out as the bus has them. -/
  | reply (pieces : List Word)
  deriving DecidableEq, Repr

/-- One action of the world outside the block (R101, R340, R350). -/
inductive HostAction where
  /-- A native access. -/
  | access (a : Access)
  /-- WAIT: read STATUS until BUSY = 0 (R101). -/
  | wait
  /-- An access on the host's bus, which HOST_MAP translates or leaves undefined (R61), with the answers of the native
  accesses it has performed so far: the value of a read, 0 for a write. -/
  | bus (b : BusAccess) (answers : List Word)
  /-- The reset input is asserted and released, in its turn of the host's actions (R340, log 8). -/
  | reset
  deriving DecidableEq, Repr

/-- The two agents whose steps interleave (R350). -/
inductive Agent where
  | host
  | engine
  deriving DecidableEq, Repr

end Sys2Proof
end

