-- ==== Sys2Proof/Config.lean ====
section
/-! DEFINITION. The parameters of R6: the plain ones as a record, the open ones and the free values as constants
without a body, so that no proof can see their values. -/

namespace Sys2Proof

/-- FB_FORMAT_MAP: the document's feedback codes, or the alternative of R99. -/
inductive FbFormatMap where
  | doc
  | rfc
  deriving DecidableEq, Repr

/-- UNKNOWN_PT_CODE: the error for a Packet Type outside 200 to 207 (R154). -/
inductive UnknownPtCode where
  | wrongType
  | unknownType
  deriving DecidableEq, Repr

/-- The plain-data parameters of one block (R6). The 32-bit types hold exactly the legal ranges of MAX_IBUF and
MAX_OBUF, 0 to 2^32 - 1. -/
structure Params where
  maxIbuf : Word
  maxObuf : Word
  unknownPtCode : UnknownPtCode
  fbFormatMap : FbFormatMap
  deriving DecidableEq, Repr

/-- An error verdict of the per-type decoder (R180). -/
inductive TdError where
  | packetTooShort
  | wrongType
  | badLength
  | contentError
  deriving DecidableEq, Repr, Inhabited

/-- A verdict on a window whose Type and Count are the ones the decoder expects: never WrongType (R185). -/
inductive TdMatched where
  | ok
  | packetTooShort
  | badLength
  | contentError
  deriving DecidableEq, Repr, Inhabited

/-- MAX_IBUF, an open parameter (R6, log 4). -/
opaque Config.maxIbuf : Word

/-- MAX_OBUF, an open parameter (R6, log 4). -/
opaque Config.maxObuf : Word

/-- The parameters of the block that `State.reset` describes: the spec's defaults where it gives one (R6, log 3). -/
def Config.params : Params :=
  { maxIbuf := Config.maxIbuf, maxObuf := Config.maxObuf, unknownPtCode := .wrongType, fbFormatMap := .doc }

/-- HOST_MAP: what a bus access does next, given the answers of the native accesses it has performed; none where the
platform defines nothing. So placement, byte lanes, and how a wider or narrower access is split or put together are its
own (R61, R63, R65, log 7). -/
opaque Config.hostMap : BusAccess → List Word → Option BusStep

/-- What the byte at an IBUF address holds after the n-th reset: any value (R42, log 6). -/
opaque Config.ibufAtReset : Nat → Nat → Byte

/-- What word K of DTAB entry i holds after the n-th reset, as a function of n, i and K: any value (R42, log 6). -/
opaque Config.dtabAtReset : Nat → Nat → Nat → Word

/-- The 'requiredMinimumBody' of a class, in bytes: the per-type decoder's own, within R184 (R183, log 5). -/
opaque Config.tdMinBody : PacketClass → Nat

/-- The stride of a class's variable-length section, where the source gives none; 0 for no such section (R183, log 5). -/
opaque Config.tdStride : PacketClass → Nat

/-- Whether a class demands at least one entry, where the source does not say (R183, log 5). -/
opaque Config.tdMandatory : PacketClass → Bool

/-- How many bytes of a window its class's variable-length section takes: the body layouts are the per-type decoder's
own (R183, log 5). -/
opaque Config.tdSectionBytes : PacketClass → List Byte → Nat

/-- Whether the per-type decoder of a class expects this Packet Type and Count: its own constants (R185, log 5). -/
opaque Config.tdExpects : PacketClass → BitVec 8 → BitVec 5 → Bool

/-- The same for a class whose Count is an entry count that may be any number, so that the Packet Type alone is
re-validated (R184, R185, log 5). -/
opaque Config.tdExpectsType : PacketClass → BitVec 8 → Bool

/-- Whether the per-type decoder re-validates the type before it measures a window that fails both (R183, R185,
log 5). -/
opaque Config.tdTypeFirst : PacketClass → List Byte → Bool

/-- The code with which the per-type decoder rejects an APP window too short for its Name, which the spec does not name
(R186, log 5). -/
opaque Config.tdAppError : List Byte → TdError

/-- The per-type decoder's verdict on a zero-entry SR, RR or BYE that holds nothing but this required body, OK where it
objects to nothing (R180, R184, log 5). -/
opaque Config.tdFixed : PacketClass → List Byte → TdMatched

/-- The per-type decoder's verdict on a window no other rule of its contract speaks of (R180, R181, log 5). -/
opaque Config.tdMatched : PacketClass → List Byte → TdMatched

end Sys2Proof
end

