-- ==== Sys2Proof/WellFormed.lean ====
section
/-! DEFINITION. Which instructions the dispatch table can produce: a rejecting row holds no (Type, Count) pair that an
accepting row takes (R152 to R154). -/

namespace Sys2Proof

/-- No class is registered for this format of Packet Type 205 (R147, R150, R152). -/
def tlfbUnregisteredFmt (m : FbFormatMap) (c : BitVec 5) : Bool :=
  match m with
  | .doc => c != 1#5
  | .rfc => c != 1#5 && c != 5#5

/-- No class is registered for this format of Packet Type 206 (R148, R149, R150, R153). -/
def psfbUnregisteredFmt (m : FbFormatMap) (c : BitVec 5) : Bool :=
  match m with
  | .doc => c != 1#5 && c != 2#5 && c != 4#5
  | .rfc => c != 1#5 && c != 4#5

/-- A Packet Type outside 200 to 207 (R154). -/
def unknownPacketType (pt : BitVec 8) : Bool :=
  decide (pt.toNat < 200) || decide (207 < pt.toNat)

/-- The instruction is one the dispatch table produces under this feedback map (R97, R99). -/
def Instr.wellFormed (m : FbFormatMap) : Instr → Bool
  | .sr _ _ _ _ => true
  | .rr _ _ _ _ => true
  | .sdes _ _ _ _ => true
  | .bye _ _ _ _ => true
  | .app _ _ _ _ => true
  | .tlfbNack _ _ _ => true
  | .psfbPli _ _ _ => true
  | .psfbFir _ _ _ => true
  | .psfbRrr _ _ _ => true
  | .xr _ _ _ _ => true
  | .tlfbUnregistered _ _ c _ => tlfbUnregisteredFmt m c
  | .psfbUnregistered _ _ c _ => psfbUnregisteredFmt m c
  | .unknownPt _ _ _ pt _ => unknownPacketType pt
  | .start _ => true
  | .encClear => true
  | .encAppend _ => true

end Sys2Proof
end

