-- ==== Sys2Proof/Decode.lean ====
section
/-! DEFINITION. The header codec (40_header_codec.md), the dispatch table from header words to instructions
(41_dispatch.md), the command decoder for CSR writes (R100), and the encoder beside them. -/

namespace Sys2Proof

/-- {V, P, C, PT, L} packed into the header word (R90, R124). -/
def Header.pack (h : Header) : Word :=
  h.v ++ h.p ++ h.c ++ h.pt ++ h.l

/-- The fields of a header word (R90). -/
def Header.unpack (w : Word) : Header :=
  { v := w.extractLsb' 30 2
    p := w.extractLsb' 29 1
    c := w.extractLsb' 24 5
    pt := w.extractLsb' 16 8
    l := w.extractLsb' 0 16 }

/-- Four bytes in network byte order as one word (R8, R62). -/
def be32 (b0 b1 b2 b3 : Byte) : Word :=
  b0 ++ b1 ++ b2 ++ b3

/-- A word as four bytes in network byte order (R124). -/
def wordBytes (w : Word) : List Byte :=
  [w.extractLsb' 24 8, w.extractLsb' 16 8, w.extractLsb' 8 8, w.extractLsb' 0 8]

/-- HDR_DECODE: the header at the front of the bytes, of which `n` are available (R120 to R123). -/
def hdrDecode (b : List Byte) (n : Nat) : Except DecodeReject Header :=
  if n < 4 then .error .invalidHeader
  else
    match b with
    | b0 :: b1 :: b2 :: b3 :: _ => .ok (Header.unpack (be32 b0 b1 b2 b3))
    | _ => .error .invalidHeader

/-- HDR_ENCODE: the four bytes of a header (R124). -/
def hdrEncode (h : Header) : List Byte :=
  wordBytes h.pack

/-- The declared length in bytes, header included: (L + 1) * 4 (R95, R173). -/
def Header.declaredLength (h : Header) : Nat :=
  (h.l.toNat + 1) * 4

/-- CLASSIFY's branch for Packet Type 205 (R141, R147, R150, R152). -/
def classifyTlfb (m : FbFormatMap) (c : BitVec 5) : Except ErrCode PacketClass :=
  match m with
  | .doc => if c = 1#5 then .ok .tlfbNack else .error .wrongType
  | .rfc => if c = 1#5 then .ok .tlfbNack else if c = 5#5 then .ok .psfbRrr else .error .wrongType

/-- CLASSIFY's branch for Packet Type 206 (R141, R148 to R150, R153). -/
def classifyPsfb (m : FbFormatMap) (c : BitVec 5) : Except ErrCode PacketClass :=
  match m with
  | .doc =>
    if c = 1#5 then .ok .psfbPli else if c = 2#5 then .ok .psfbFir
    else if c = 4#5 then .ok .psfbRrr else .error .wrongType
  | .rfc => if c = 1#5 then .ok .psfbPli else if c = 4#5 then .ok .psfbFir else .error .wrongType

/-- The error of UNKNOWN_PT_CODE (R154). -/
def unknownPtErr : UnknownPtCode → ErrCode
  | .wrongType => .wrongType
  | .unknownType => .unknownType

/-- CLASSIFY, as R141 writes it: the class of a (Type, Count) pair, or the error it is rejected with. -/
def classify (m : FbFormatMap) (u : UnknownPtCode) (pt : BitVec 8) (c : BitVec 5) : Except ErrCode PacketClass :=
  if pt = 200#8 then .ok .sr
  else if pt = 201#8 then .ok .rr
  else if pt = 202#8 then .ok .sdes
  else if pt = 203#8 then .ok .bye
  else if pt = 204#8 then .ok .app
  else if pt = 205#8 then classifyTlfb m c
  else if pt = 206#8 then classifyPsfb m c
  else if pt = 207#8 then .ok .xr
  else .error (unknownPtErr u)

/-- The row of a header of Packet Type 205 (R147, R150, R152). -/
def tlfbRow (m : FbFormatMap) (h : Header) : Instr :=
  match m with
  | .doc => if h.c = 1#5 then .tlfbNack h.v h.p h.l else .tlfbUnregistered h.v h.p h.c h.l
  | .rfc =>
    if h.c = 1#5 then .tlfbNack h.v h.p h.l else if h.c = 5#5 then .psfbRrr h.v h.p h.l
    else .tlfbUnregistered h.v h.p h.c h.l

/-- The row of a header of Packet Type 206 (R148, R149, R150, R153). -/
def psfbRow (m : FbFormatMap) (h : Header) : Instr :=
  match m with
  | .doc =>
    if h.c = 1#5 then .psfbPli h.v h.p h.l else if h.c = 2#5 then .psfbFir h.v h.p h.l
    else if h.c = 4#5 then .psfbRrr h.v h.p h.l else .psfbUnregistered h.v h.p h.c h.l
  | .rfc =>
    if h.c = 1#5 then .psfbPli h.v h.p h.l else if h.c = 4#5 then .psfbFir h.v h.p h.l
    else .psfbUnregistered h.v h.p h.c h.l

/-- The row of the opcode table a header falls in (R142 to R154). -/
def Instr.ofHeader (m : FbFormatMap) (h : Header) : Instr :=
  if h.pt = 200#8 then .sr h.v h.p h.c h.l
  else if h.pt = 201#8 then .rr h.v h.p h.c h.l
  else if h.pt = 202#8 then .sdes h.v h.p h.c h.l
  else if h.pt = 203#8 then .bye h.v h.p h.c h.l
  else if h.pt = 204#8 then .app h.v h.p h.c h.l
  else if h.pt = 205#8 then tlfbRow m h
  else if h.pt = 206#8 then psfbRow m h
  else if h.pt = 207#8 then .xr h.v h.p h.c h.l
  else .unknownPt h.v h.p h.c h.pt h.l

/-- The Packet Type and format code of a Full Intra Request (R149). -/
def firCode : FbFormatMap → BitVec 8 × BitVec 5
  | .doc => (206#8, 2#5)
  | .rfc => (206#8, 4#5)

/-- The Packet Type and format code of a Rapid Resynchronization Request (R150). -/
def rrrCode : FbFormatMap → BitVec 8 × BitVec 5
  | .doc => (206#8, 4#5)
  | .rfc => (205#8, 5#5)

/-- The value of CTRL that gives START, with bits 31:2 zero (R100). -/
def startValue (frameOnly : Bool) : Word :=
  if frameOnly then 3#32 else 1#32

/-- What an instruction is made of: the header of a header word (R97, R99), or the CSR offset and value of a command
(R100). -/
def Instr.form (m : FbFormatMap) : Instr → Header ⊕ (BitVec 8 × Word)
  | .sr v p c l => .inl ⟨v, p, c, 200#8, l⟩
  | .rr v p c l => .inl ⟨v, p, c, 201#8, l⟩
  | .sdes v p c l => .inl ⟨v, p, c, 202#8, l⟩
  | .bye v p c l => .inl ⟨v, p, c, 203#8, l⟩
  | .app v p c l => .inl ⟨v, p, c, 204#8, l⟩
  | .tlfbNack v p l => .inl ⟨v, p, 1#5, 205#8, l⟩
  | .psfbPli v p l => .inl ⟨v, p, 1#5, 206#8, l⟩
  | .psfbFir v p l => .inl ⟨v, p, (firCode m).2, (firCode m).1, l⟩
  | .psfbRrr v p l => .inl ⟨v, p, (rrrCode m).2, (rrrCode m).1, l⟩
  | .xr v p c l => .inl ⟨v, p, c, 207#8, l⟩
  | .tlfbUnregistered v p c l => .inl ⟨v, p, c, 205#8, l⟩
  | .psfbUnregistered v p c l => .inl ⟨v, p, c, 206#8, l⟩
  | .unknownPt v p c pt l => .inl ⟨v, p, c, pt, l⟩
  | .start f => .inr (0x00#8, startValue f)
  | .encClear => .inr (0x20#8, 1#32)
  | .encAppend w => .inr (0x28#8, w)

/-- The command a CSR write performs (R100): CTRL and ENC_CTRL with bit 0 set, and every write to ENC_SIZE. Every other
CSR write is rejected here: it only stores a field. -/
def decodeCsrWrite (off : BitVec 8) (w : Word) : Except DecodeReject Instr :=
  if off = 0x00#8 then
    if w.getLsbD 0 then .ok (.start (w.getLsbD 1)) else .error .notACommand
  else if off = 0x20#8 then
    if w.getLsbD 0 then .ok .encClear else .error .notACommand
  else if off = 0x28#8 then .ok (.encAppend w)
  else .error .notACommand

/-- The instruction of a header word: every word has one (R98, R156). -/
def decodeHeaderWord (m : FbFormatMap) (w : Word) : Instr :=
  Instr.ofHeader m (Header.unpack w)

/-- The decoder on both ways an instruction reaches the block. -/
def decode (m : FbFormatMap) : Encoding → Except DecodeReject Instr
  | .header w => .ok (decodeHeaderWord m w)
  | .csrWrite off w => decodeCsrWrite off w

/-- The decoder on bytes of IBUF, of which `n` are available: HDR_DECODE, then the dispatch table (R172). -/
def decodeBytes (m : FbFormatMap) (b : List Byte) (n : Nat) : Except DecodeReject Instr :=
  match hdrDecode b n with
  | .ok h => .ok (Instr.ofHeader m h)
  | .error e => .error e

/-- The encoder: the header word, or the CSR write, of an instruction (R90, R100). -/
def encode (m : FbFormatMap) (i : Instr) : Encoding :=
  match i.form m with
  | .inl h => .header h.pack
  | .inr (off, w) => .csrWrite off w

/-- Whether a row of the opcode table with so many bits can be a header word: the Packet Type of every header row lies
above bit 15, so a row that reaches no further than bit 7 is a CSR write, whose offset the table gives no bits (log 10). -/
def tableRowIsCsrWrite (nbits : Nat) : Bool :=
  decide (nbits ≤ 8)

/-- The instruction the decoder reads from a table row's bits: a header word under the default FB_FORMAT_MAP, or, for
the short rows of `tableRowIsCsrWrite`, a write to the CSR offset 0x00 (log 10). -/
def decodeTableWord (nbits w : Nat) : Option Instr :=
  if tableRowIsCsrWrite nbits then (decode .doc (.csrWrite 0x00#8 (BitVec.ofNat 32 w))).toOption
  else (decodeBytes .doc (wordBytes (BitVec.ofNat 32 w)) 4).toOption

end Sys2Proof
end

