-- ==== Sys2Proof/Machine/State.lean ====
section
/-! DEFINITION. The state of one block (R20 to R42), the ways a step can stop, and the state after reset (R42). -/

namespace Sys2Proof.Machine

/-- The reasons a step can fault. There are none: the spec lets no access and no instruction stop the block (its errors
are results, R300 to R306). Safe: a claim that no step faults is then no assumption about data. -/
inductive Fault : Type
  deriving DecidableEq, Repr

/-- The reasons a step can be refused. -/
inductive Refusal where
  /-- Raised by `exec` for an instruction without a meaning; no arm of this model raises it. Safe. -/
  | notModelled (mnemonic : String)
  /-- Raised by a bus access that HOST_MAP does not define, or not to its end (I12, I17 of 93_implementation_defined.md). Safe: the model
  stops where a platform might go on. -/
  | hostMapUndefined (b : BusAccess)
  deriving DecidableEq, Repr

/-- One DTAB entry as the decode engine writes it (R38): D_HDR, D_OFF, D_LEN and the four fields of D_INFO. -/
structure Descriptor where
  hdr : Word
  off : Word
  len : Word
  tag : BitVec 4
  padFlag : Bool
  padValid : Bool
  padCount : Byte
  deriving DecidableEq, Repr

/-- The state of one block, and the world it stands in. -/
structure State where
  /-- The build-time parameters; no step changes them (R6, R158, log 3). -/
  params : Params
  /-- CTRL.FRAME_ONLY (R25). -/
  frameOnly : Bool
  /-- STATUS.BUSY (R26). -/
  busy : Bool
  /-- STATUS.DONE (R26). -/
  done : Bool
  /-- STATUS.ERR (R26, R300). -/
  err : ErrCode
  /-- BUF_LEN (R27). -/
  bufLen : Word
  /-- OFFSET (R28). -/
  offset : Word
  /-- PKT_COUNT (R29). -/
  pktCount : Word
  /-- ERR_OFFSET (R30). -/
  errOffset : Word
  /-- ENC_FIELDS (R32). -/
  encFields : Word
  /-- ENC_HDR (R34). -/
  encHdr : Word
  /-- ENC_OFFSET (R35). -/
  encOffset : Word
  /-- ENC_STATUS.ENC_ERR (R36, R300). -/
  encErr : ErrCode
  /-- ENC_COUNT (R37). -/
  encCount : Word
  /-- IBUF (R40): the bytes written since the last reset, addresses rising. -/
  ibuf : List Host.Cell
  /-- DTAB (R38, R39): the entries written since the last reset, indexes rising. -/
  dtab : List (Nat × Descriptor)
  /-- The model's own: how often the block has been reset, the index of the free values of R42 (log 6). -/
  resets : Nat
  /-- The model's own: the host actions still to come, oldest first (log 1). -/
  host : List HostAction
  /-- The model's own: which agent the scheduler picks in the coming steps (R350, log 2). -/
  sched : List Agent
  /-- The model's own: what the host's reads have returned, oldest first (log 9). -/
  responses : List Word
  deriving DecidableEq, Repr

/-- The state right after reset (R42), with nothing for the host to do. -/
def State.reset : State :=
  { params := Config.params
    frameOnly := false
    busy := false
    done := false
    err := .ok
    bufLen := 0#32
    offset := 0#32
    pktCount := 0#32
    errOffset := 0#32
    encFields := 0x80000000#32
    encHdr := 0#32
    encOffset := 0#32
    encErr := .ok
    encCount := 0#32
    ibuf := []
    dtab := []
    resets := 0
    host := []
    sched := []
    responses := [] }

end Sys2Proof.Machine
end

