-- ==== Sys2Proof/Machine/Flags.lean ====
section
/-! DEFINITION. The numbers behind the names of R140 and R300, the status words of R26 and R36, the padding detector of
R213 and the D_INFO word of R38. -/

namespace Sys2Proof.Machine

/-- The 4-bit number of an error code (R300). -/
def errNumber : ErrCode → BitVec 4
  | .ok => 0
  | .invalidHeader => 1
  | .packetTooShort => 2
  | .wrongType => 3
  | .badLength => 4
  | .unknownType => 5
  | .contentError => 6
  | .lengthOverflow => 7

/-- The 4-bit tag of a packet class (R140). -/
def classTag : PacketClass → BitVec 4
  | .sr => 1
  | .rr => 2
  | .sdes => 3
  | .bye => 4
  | .app => 5
  | .tlfbNack => 6
  | .psfbPli => 7
  | .psfbFir => 8
  | .psfbRrr => 9
  | .xr => 10

/-- STATUS as the host reads it: BUSY in bit 0, DONE in bit 1, ERR in bits 11:8 (R26). -/
def statusWord (s : State) : Word :=
  0#20 ++ errNumber s.err ++ 0#6 ++ BitVec.ofBool s.done ++ BitVec.ofBool s.busy

/-- ENC_STATUS as the host reads it: ENC_ERR in bits 11:8 (R36). -/
def encStatusWord (s : State) : Word :=
  0#20 ++ errNumber s.encErr ++ 0#8

/-- CTRL as the host reads it: FRAME_ONLY in bit 1, START reads 0 (R25). -/
def ctrlWord (s : State) : Word :=
  0#30 ++ BitVec.ofBool s.frameOnly ++ 0#1

/-- What the padding detector reports (R213). -/
structure PadInfo where
  flag : Bool
  count : Byte
  valid : Bool
  deriving DecidableEq, Repr

/-- PAD_DETECT (R210 to R213): the P bit, the pad count in the window's last byte, and whether that count is possible. -/
def padDetect (p : BitVec 1) (dl : Nat) (last : Byte) : PadInfo :=
  let flag := p == 1#1
  let count := if flag then last else 0#8
  { flag := flag, count := count, valid := flag && decide (1 ≤ count.toNat) && decide (count.toNat ≤ dl - 4) }

/-- D_INFO (R38): PAD_COUNT in bits 23:16, PAD_VALID in bit 9, PAD_FLAG in bit 8, TAG in bits 3:0. -/
def infoWord (d : Descriptor) : Word :=
  0#8 ++ d.padCount ++ 0#6 ++ BitVec.ofBool d.padValid ++ BitVec.ofBool d.padFlag ++ 0#4 ++ d.tag

/-- Word K of a descriptor, K from 0 to 3 (R38). -/
def descriptorWord (d : Descriptor) (k : Nat) : Word :=
  match k with
  | 0 => d.hdr
  | 1 => d.off
  | 2 => d.len
  | _ => infoWord d

end Sys2Proof.Machine
end

