-- ==== Sys2Proof/Machine/Ops.lean ====
section
/-! DEFINITION. The named operations on memory and registers: the canonical lists behind IBUF and DTAB, the engine's
stop primitive `finish` (R303), the encode unit's `encFail` (R236), the reset input (R340). -/

namespace Sys2Proof.Machine

/-- The value listed at a key, none where nothing is listed. -/
def Cells.lookup {α : Type} : List (Nat × α) → Nat → Option α
  | [], _ => none
  | (k, x) :: rest, a => if a = k then some x else Cells.lookup rest a

/-- The list with the value at one key set, keys still rising. -/
def Cells.insert {α : Type} (a : Nat) (v : α) : List (Nat × α) → List (Nat × α)
  | [] => [(a, v)]
  | (k, x) :: rest =>
    if a < k then (a, v) :: (k, x) :: rest
    else if a = k then (a, v) :: rest
    else (k, x) :: Cells.insert a v rest

/-- All keys of the list lie at or above `lo`, strictly rising, below `hi`. -/
def Cells.risingFrom {α : Type} (hi : Nat) : Nat → List (Nat × α) → Bool
  | _, [] => true
  | lo, (k, _) :: rest => decide (lo ≤ k) && decide (k < hi) && Cells.risingFrom hi (k + 1) rest

/-- The canonical form of IBUF (R40): addresses strictly rising and below MAX_IBUF. -/
def Memory.wf (maxIbuf : Word) (mem : List Host.Cell) : Bool :=
  Cells.risingFrom maxIbuf.toNat 0 mem

/-- D_DEPTH = floor(MAX_IBUF / 4) (R38). -/
def dtabDepth (p : Params) : Nat :=
  p.maxIbuf.toNat / 4

/-- The canonical form of DTAB (R38): indexes strictly rising and below D_DEPTH. -/
def Dtab.wf (p : Params) (entries : List (Nat × Descriptor)) : Bool :=
  Cells.risingFrom (dtabDepth p) 0 entries

/-- The byte IBUF holds at an address; any value where nothing was written since reset (R40, R42). -/
def readByte (s : State) (a : Nat) : Byte :=
  match Cells.lookup s.ibuf a with
  | some b => b
  | none => Config.ibufAtReset s.resets a

/-- MemRead(IBUF, a, n) (R9). -/
def memRead (s : State) (a : Nat) : Nat → List Byte
  | 0 => []
  | n + 1 => readByte s a :: memRead s (a + 1) n

/-- IBUF[a] <- v, as the host's byte write performs it where it has an effect (R60). -/
def writeByte (a : Nat) (v : Byte) (s : State) : State :=
  { s with ibuf := Cells.insert a v s.ibuf }

/-- Word K of DTAB entry i; any value where the entry was not written since reset (R39, R42). -/
def dtabWord (s : State) (i k : Nat) : Word :=
  match Cells.lookup s.dtab i with
  | some d => descriptorWord d k
  | none => Config.dtabAtReset s.resets i k

/-- The decode engine's stop primitive, which plays the part of trap entry (R303). -/
def finish (code : ErrCode) (off : Word) (s : State) : State :=
  { s with
    busy := false
    done := true
    err := code
    errOffset := if code = .ok then 0#32 else off
    offset := if code = .ok then s.offset else off
    pktCount := if code = .ok then s.pktCount else 0#32 }

/-- START's clearing of the last run's result (R170, R305). -/
def clearRun (frameOnly : Bool) (s : State) : State :=
  { s with
    frameOnly := frameOnly
    done := false
    err := .ok
    offset := 0#32
    pktCount := 0#32
    errOffset := 0#32 }

/-- BUSY <- 1 (R170). -/
def setBusy (s : State) : State :=
  { s with busy := true }

/-- CTRL.FRAME_ONLY <- b (R25). -/
def setFrameOnly (b : Bool) (s : State) : State :=
  { s with frameOnly := b }

/-- BUF_LEN <- v (R27). -/
def setBufLen (v : Word) (s : State) : State :=
  { s with bufLen := v }

/-- ENC_FIELDS <- v, bits 15:0 reading 0 (R32). -/
def setEncFields (v : Word) (s : State) : State :=
  { s with encFields := v.extractLsb' 16 16 ++ 0#16 }

/-- DTAB[PKT_COUNT] <- d; PKT_COUNT and OFFSET advance (R176). -/
def recordPacket (d : Descriptor) (dl : Nat) (s : State) : State :=
  { s with
    dtab := Cells.insert s.pktCount.toNat d s.dtab
    pktCount := s.pktCount + 1#32
    offset := s.offset + BitVec.ofNat 32 dl }

/-- The four registers ENC_CLEAR and enc_fail write: the error as given, the rest zero (R232, R236). -/
def encReset (code : ErrCode) (s : State) : State :=
  { s with encErr := code, encOffset := 0#32, encCount := 0#32, encHdr := 0#32 }

/-- enc_fail(code), the encode unit's stop primitive (R236). -/
def encFail (code : ErrCode) (s : State) : State :=
  encReset code s

/-- A successful append: the header word, the output length and the packet count (R233). -/
def recordAppend (hdr size : Word) (s : State) : State :=
  { s with encHdr := hdr, encOffset := s.encOffset + size, encCount := s.encCount + 1#32 }

/-- A host read returns a value; nothing else changes (R67). -/
def respond (v : Word) (s : State) : State :=
  { s with responses := s.responses ++ [v] }

/-- An access on the host's bus returns its pieces (R63); nothing else changes. -/
def respondAll (vs : List Word) (s : State) : State :=
  { s with responses := s.responses ++ vs }

/-- The host's remaining actions (log 1). -/
def setHost (acts : List HostAction) (s : State) : State :=
  { s with host := acts }

/-- The scheduler's remaining picks (log 2). -/
def setSched (picks : List Agent) (s : State) : State :=
  { s with sched := picks }

/-- The reset input (R340): the values of R42, IBUF and DTAB again unspecified. The parameters are build-time and the
host is not part of the block. -/
def resetBlock (s : State) : State :=
  { s with
    frameOnly := false
    busy := false
    done := false
    err := .ok
    bufLen := 0#32
    offset := 0#32
    pktCount := 0#32
    errOffset := 0#32
    encFields := 0x80000000#32
    encHdr := 0#32
    encOffset := 0#32
    encErr := .ok
    encCount := 0#32
    ibuf := []
    dtab := []
    resets := s.resets + 1 }

end Sys2Proof.Machine
end

