-- ==== Sys2Proof/Machine/Operands.lean ====
section
/-! DEFINITION. What a step reads before it acts: the remaining bytes and the window of a packet (R171, R180), the
header fetch (R172), the Length field of a packet size (R231). -/

namespace Sys2Proof.Machine

/-- rem = BUF_LEN - OFFSET (R171), a natural number (R190). -/
def remaining (s : State) : Nat :=
  s.bufLen.toNat - s.offset.toNat

/-- The `declared_len` bytes of the packet at OFFSET, its header included (R180). -/
def window (dl : Nat) (s : State) : List Byte :=
  memRead s s.offset.toNat dl

/-- The last byte of the packet's window (R211). -/
def lastByte (dl : Nat) (s : State) : Byte :=
  readByte s (s.offset.toNat + dl - 1)

/-- The header peek at OFFSET and its dispatch row: HDR_DECODE(MemRead(IBUF, o, min(rem, 4)), rem) (R172). -/
def fetch (s : State) : Except DecodeReject Instr :=
  decodeBytes s.params.fbFormatMap (memRead s s.offset.toNat (min (remaining s) 4)) (remaining s)

/-- LEN_ENCODE(S) (R231). -/
def lenEncode (size : Word) : Except ErrCode (BitVec 16) :=
  if size = 0#32 ∨ size.toNat % 4 ≠ 0 then .error .badLength
  else if 262144 < size.toNat then .error .lengthOverflow
  else .ok (BitVec.ofNat 16 (size.toNat / 4 - 1))

/-- The header word of ENC_FIELDS with a Length (R233). -/
def encHeader (fields : Word) (l : BitVec 16) : Header :=
  { Header.unpack fields with l := l }

end Sys2Proof.Machine
end

