-- ==== Sys2Proof/Machine/Commands.lean ====
section
/-! DEFINITION. The meanings of the three host commands: START (R170), ENC_CLEAR (R232), ENC_APPEND (R233). -/

namespace Sys2Proof.Machine

/-- START's effect while BUSY = 0 (R170): the old result is cleared; an empty buffer finishes at once. -/
def startRun (frameOnly : Bool) (s : State) : State :=
  let t := clearRun frameOnly s
  if s.bufLen = 0#32 then finish .invalidHeader 0#32 t else setBusy t

/-- START (R170); no effect while BUSY = 1 (R355). -/
def execStart (frameOnly : Bool) (s : State) : Host.Outcome State Fault Refusal :=
  .next (if s.busy then s else startRun frameOnly s)

/-- ENC_CLEAR (R232). -/
def execEncClear (s : State) : Host.Outcome State Fault Refusal :=
  .next (encReset .ok s)

/-- ENC_APPEND's effect while ENC_ERR = 0 (R233): the Length field, the capacity check of R238, the header word. -/
def appendPacket (size : Word) (s : State) : State :=
  match lenEncode size with
  | .error e => encFail e s
  | .ok l =>
    if s.params.maxObuf.toNat < s.encOffset.toNat + size.toNat then encFail .lengthOverflow s
    else recordAppend (encHeader s.encFields l).pack size s

/-- ENC_APPEND(S) (R233); no effect while ENC_ERR is set (R234). -/
def execEncAppend (size : Word) (s : State) : Host.Outcome State Fault Refusal :=
  .next (if s.encErr = .ok then appendPacket size s else s)

end Sys2Proof.Machine
end

