-- ==== Sys2Proof/Machine/TypeDecoder.lean ====
section
/-! DEFINITION. The per-type decoder interface TD (R180): free verdicts of the configuration, held to the contract of
R181 to R186 (log 5). -/

namespace Sys2Proof.Machine

/-- The code of an error verdict (R180). -/
def tdErrorCode : TdError → ErrCode
  | .packetTooShort => .packetTooShort
  | .wrongType => .wrongType
  | .badLength => .badLength
  | .contentError => .contentError

/-- The code of a verdict on a window of the expected type; OK is 0 (R180, R185). -/
def tdMatchedCode : TdMatched → ErrCode
  | .ok => .ok
  | .packetTooShort => .packetTooShort
  | .badLength => .badLength
  | .contentError => .contentError

/-- The bytes a class's body must have (R183). A zero-entry BYE is a bare header and a zero-entry RR ends with its SSRC,
and R184 calls both valid, so their minima are 0 and at most 4 bytes (log 5). -/
def tdMinimum (k : PacketClass) : Nat :=
  match k with
  | .bye => 0
  | .rr => min (Config.tdMinBody .rr) 4
  | .sr | .sdes | .app | .tlfbNack | .psfbPli | .psfbFir | .psfbRrr | .xr => Config.tdMinBody k

/-- The stride of a class's variable-length section (R183): 8-byte FIR entries, 24-byte reception reports. -/
def tdStride (k : PacketClass) : Nat :=
  match k with
  | .psfbFir => 8
  | .sr | .rr => 24
  | .sdes | .bye | .app | .tlfbNack | .psfbPli | .psfbRrr | .xr => Config.tdStride k

/-- Whether a class demands at least one entry: FIR does (R182), SR, RR and BYE do not (R184). -/
def tdMandatory (k : PacketClass) : Bool :=
  match k with
  | .psfbFir => true
  | .sr | .rr | .bye => false
  | .sdes | .app | .tlfbNack | .psfbPli | .psfbRrr | .xr => Config.tdMandatory k

/-- The bytes a zero-entry SR, RR or BYE holds after its header: the SSRC and the rest of the required body, nothing for a
BYE; none for the classes R184 does not speak of (log 5). -/
def tdFixedLength (k : PacketClass) : Option Nat :=
  match k with
  | .bye => some 0
  | .sr | .rr => some (max 4 (tdMinimum k))
  | .sdes | .app | .tlfbNack | .psfbPli | .psfbFir | .psfbRrr | .xr => none

/-- The bytes of a window its class's variable-length section takes. The FCI of a FIR is what follows the header and both
SSRC fields (R182); reception reports lie after the header, the SSRC and the required body; other sections anywhere
after the header (log 5). -/
def tdSection (k : PacketClass) (win : List Byte) : Nat :=
  match k with
  | .psfbFir => win.length - 12
  | .sr | .rr | .sdes | .bye | .app | .tlfbNack | .psfbPli | .psfbRrr | .xr =>
    min (Config.tdSectionBytes k win) (win.length - (4 + (tdFixedLength k).getD 0))

/-- The section is no exact multiple of its stride, or shorter than one mandatory entry (R182, R183). -/
def tdSectionBad (k : PacketClass) (win : List Byte) : Bool :=
  decide (tdStride k ≠ 0) &&
    (decide (tdSection k win % tdStride k ≠ 0) || (tdMandatory k && decide (tdSection k win < tdStride k)))

/-- What R183 finds wrong with a window's length. -/
def tdLengthError (k : PacketClass) (win : List Byte) : Option ErrCode :=
  if win.length < 4 + tdMinimum k then some .packetTooShort
  else if tdSectionBad k win then some .badLength
  else none

/-- A FIR window with both SSRC fields whose FCI is empty or no multiple of the 8-byte entry (R182). -/
def tdFirBad (k : PacketClass) (win : List Byte) : Bool :=
  decide (k = .psfbFir) && decide (12 ≤ win.length) && tdSectionBad k win

/-- An APP window with fewer than 4 bytes left for the Name after the header and the SSRC (R186). -/
def tdNameShort (k : PacketClass) (win : List Byte) : Bool :=
  decide (k = .app) && decide (win.length < 12)

/-- Whether a class's decoder expects this Type and Count (R185). The Count of SR, RR and BYE is no constant to expect: it
counts entries, and none is as valid as any (R93, R142, R143, R145, R184, log 5). -/
def tdExpects (k : PacketClass) (pt : BitVec 8) (c : BitVec 5) : Bool :=
  match k with
  | .sr | .rr | .bye => Config.tdExpectsType k pt
  | .sdes | .app | .tlfbNack | .psfbPli | .psfbFir | .psfbRrr | .xr => Config.tdExpects k pt c

/-- The window's header matches the constants this class's decoder expects (R185); without a header there is nothing to
mismatch. -/
def tdTypeMatches (k : PacketClass) (win : List Byte) : Bool :=
  match hdrDecode win win.length with
  | .ok h => tdExpects k h.pt h.c
  | .error _ => true

/-- The size of one entry: a 24-byte reception report (R183), a 4-byte source of a BYE (R6, log 5). -/
def tdEntrySize (k : PacketClass) : Nat :=
  match k with
  | .sr | .rr => 24
  | .bye => 4
  | .sdes | .app | .tlfbNack | .psfbPli | .psfbFir | .psfbRrr | .xr => 0

/-- How many entries a plain SR, RR or BYE holds; plain is one with V = 2 and P = 0 that holds its required body, as many
entries as its Count says, and nothing else (R184, log 5). -/
def tdPlainEntries (k : PacketClass) (win : List Byte) : Option Nat :=
  match tdFixedLength k, hdrDecode win win.length with
  | some f, .ok h =>
    if h.v = 2#2 ∧ h.p = 0#1 ∧ win.length = 4 + f + tdEntrySize k * h.c.toNat then some h.c.toNat else none
  | _, _ => none

/-- The verdict on a plain packet without its entries (R184). -/
def tdFixedVerdict (k : PacketClass) (win : List Byte) : ErrCode :=
  tdMatchedCode (Config.tdFixed k ((win.drop 4).take ((tdFixedLength k).getD 0)))

/-- The verdict on a window whose length and type are right: free, but for R184. A plain zero-entry packet may be rejected
for any reason but its missing entries alone, so where it is, giving it entries and nothing else does not make it OK. -/
def tdBodyVerdict (k : PacketClass) (win : List Byte) : ErrCode :=
  match tdPlainEntries k win with
  | none => tdMatchedCode (Config.tdMatched k win)
  | some 0 => tdFixedVerdict k win
  | some (_ + 1) =>
    match tdMatchedCode (Config.tdMatched k win) with
    | .ok => tdFixedVerdict k win
    | e => e

/-- TD(tag, window): OK or an error code (R180), within R181 to R186. -/
def tdVerdict (k : PacketClass) (win : List Byte) : ErrCode :=
  if tdFirBad k win then .badLength
  else if tdTypeMatches k win = false ∧ (tdLengthError k win = none ∨ Config.tdTypeFirst k win = true) then .wrongType
  else
    match tdLengthError k win with
    | some e => e
    | none =>
      if tdNameShort k win then tdErrorCode (Config.tdAppError win)
      else tdBodyVerdict k win

end Sys2Proof.Machine
end

