-- ==== Sys2Proof/Machine/Framing.lean ====
section
/-! DEFINITION. FRAME_STEP after the header peek (R172 to R176): the bounds check, the dispatch result, the verdict and
the acceptance, shared by all header instructions. -/

namespace Sys2Proof.Machine

/-- The verdict on the packet at OFFSET: OK when FRAME_ONLY = 1, TD's otherwise (R172, R180). -/
def verdict (k : PacketClass) (dl : Nat) (s : State) : ErrCode :=
  if s.frameOnly then .ok else tdVerdict k (window dl s)

/-- The descriptor of the packet at OFFSET (R38, R172). -/
def descriptorOf (k : PacketClass) (h : Header) (s : State) : Descriptor :=
  let pd := padDetect h.p h.declaredLength (lastByte h.declaredLength s)
  { hdr := h.pack
    off := s.offset
    len := BitVec.ofNat 32 h.declaredLength
    tag := classTag k
    padFlag := pd.flag
    padValid := pd.valid
    padCount := pd.count }

/-- Acceptance (R176): the descriptor is written, the counters advance, and the run finishes OK at the buffer's end. -/
def accept (k : PacketClass) (h : Header) (s : State) : State :=
  let t := recordPacket (descriptorOf k h s) h.declaredLength s
  if s.offset.toNat + h.declaredLength = s.bufLen.toNat then finish .ok 0#32 t else t

/-- The rest of FRAME_STEP for a header a class is registered for (R172): the bounds check comes first (R173, R304). -/
def frameAs (k : PacketClass) (h : Header) (s : State) : State :=
  if remaining s < h.declaredLength then finish .packetTooShort s.offset s
  else
    match verdict k h.declaredLength s with
    | .ok => accept k h s
    | e => finish e s.offset s

/-- The rest of FRAME_STEP for a header the dispatch table rejects (R172, R174). -/
def frameReject (e : ErrCode) (h : Header) (s : State) : State :=
  if remaining s < h.declaredLength then finish .packetTooShort s.offset s
  else finish e s.offset s

end Sys2Proof.Machine
end

