-- ==== Sys2Proof/Machine/HeaderWords.lean ====
section
/-! DEFINITION. The meanings of the thirteen header rows of the opcode table (R142 to R154), each one FRAME_STEP (R172). -/

namespace Sys2Proof.Machine

/-- SR (R142). -/
def execSr (v : BitVec 2) (p : BitVec 1) (c : BitVec 5) (l : BitVec 16) (s : State) :
    Host.Outcome State Fault Refusal :=
  .next (frameAs .sr ⟨v, p, c, 200#8, l⟩ s)

/-- RR (R143). -/
def execRr (v : BitVec 2) (p : BitVec 1) (c : BitVec 5) (l : BitVec 16) (s : State) :
    Host.Outcome State Fault Refusal :=
  .next (frameAs .rr ⟨v, p, c, 201#8, l⟩ s)

/-- SDES (R144). -/
def execSdes (v : BitVec 2) (p : BitVec 1) (c : BitVec 5) (l : BitVec 16) (s : State) :
    Host.Outcome State Fault Refusal :=
  .next (frameAs .sdes ⟨v, p, c, 202#8, l⟩ s)

/-- BYE (R145). -/
def execBye (v : BitVec 2) (p : BitVec 1) (c : BitVec 5) (l : BitVec 16) (s : State) :
    Host.Outcome State Fault Refusal :=
  .next (frameAs .bye ⟨v, p, c, 203#8, l⟩ s)

/-- APP (R146). -/
def execApp (v : BitVec 2) (p : BitVec 1) (c : BitVec 5) (l : BitVec 16) (s : State) :
    Host.Outcome State Fault Refusal :=
  .next (frameAs .app ⟨v, p, c, 204#8, l⟩ s)

/-- TLFB_NACK (R147). -/
def execTlfbNack (v : BitVec 2) (p : BitVec 1) (l : BitVec 16) (s : State) :
    Host.Outcome State Fault Refusal :=
  .next (frameAs .tlfbNack ⟨v, p, 1#5, 205#8, l⟩ s)

/-- PSFB_PLI (R148). -/
def execPsfbPli (v : BitVec 2) (p : BitVec 1) (l : BitVec 16) (s : State) :
    Host.Outcome State Fault Refusal :=
  .next (frameAs .psfbPli ⟨v, p, 1#5, 206#8, l⟩ s)

/-- PSFB_FIR, whose type and format follow FB_FORMAT_MAP (R149). -/
def execPsfbFir (v : BitVec 2) (p : BitVec 1) (l : BitVec 16) (s : State) :
    Host.Outcome State Fault Refusal :=
  .next (frameAs .psfbFir ⟨v, p, (firCode s.params.fbFormatMap).2, (firCode s.params.fbFormatMap).1, l⟩ s)

/-- PSFB_RRR, whose type and format follow FB_FORMAT_MAP (R150). -/
def execPsfbRrr (v : BitVec 2) (p : BitVec 1) (l : BitVec 16) (s : State) :
    Host.Outcome State Fault Refusal :=
  .next (frameAs .psfbRrr ⟨v, p, (rrrCode s.params.fbFormatMap).2, (rrrCode s.params.fbFormatMap).1, l⟩ s)

/-- XR (R151). -/
def execXr (v : BitVec 2) (p : BitVec 1) (c : BitVec 5) (l : BitVec 16) (s : State) :
    Host.Outcome State Fault Refusal :=
  .next (frameAs .xr ⟨v, p, c, 207#8, l⟩ s)

/-- TLFB with an unregistered format: WrongType (R152). -/
def execTlfbUnregistered (v : BitVec 2) (p : BitVec 1) (c : BitVec 5) (l : BitVec 16) (s : State) :
    Host.Outcome State Fault Refusal :=
  .next (frameReject .wrongType ⟨v, p, c, 205#8, l⟩ s)

/-- PSFB with an unregistered format: WrongType (R153). -/
def execPsfbUnregistered (v : BitVec 2) (p : BitVec 1) (c : BitVec 5) (l : BitVec 16) (s : State) :
    Host.Outcome State Fault Refusal :=
  .next (frameReject .wrongType ⟨v, p, c, 206#8, l⟩ s)

/-- An unknown Packet Type: UNKNOWN_PT_CODE (R154). -/
def execUnknownPt (v : BitVec 2) (p : BitVec 1) (c : BitVec 5) (pt : BitVec 8) (l : BitVec 16) (s : State) :
    Host.Outcome State Fault Refusal :=
  .next (frameReject (unknownPtErr s.params.unknownPtCode) ⟨v, p, c, pt, l⟩ s)

end Sys2Proof.Machine
end

