-- ==== Sys2Proof/Machine/Dispatch.lean ====
section
/-! DEFINITION. One arm per constructor of Instr. -/

namespace Sys2Proof.Machine

/-- What each instruction does. -/
def exec (i : Instr) (s : State) : Host.Outcome State Fault Refusal :=
  match i with
  | .sr v p c l => Sys2Proof.Machine.execSr v p c l s
  | .rr v p c l => Sys2Proof.Machine.execRr v p c l s
  | .sdes v p c l => Sys2Proof.Machine.execSdes v p c l s
  | .bye v p c l => Sys2Proof.Machine.execBye v p c l s
  | .app v p c l => Sys2Proof.Machine.execApp v p c l s
  | .tlfbNack v p l => Sys2Proof.Machine.execTlfbNack v p l s
  | .psfbPli v p l => Sys2Proof.Machine.execPsfbPli v p l s
  | .psfbFir v p l => Sys2Proof.Machine.execPsfbFir v p l s
  | .psfbRrr v p l => Sys2Proof.Machine.execPsfbRrr v p l s
  | .xr v p c l => Sys2Proof.Machine.execXr v p c l s
  | .tlfbUnregistered v p c l => Sys2Proof.Machine.execTlfbUnregistered v p c l s
  | .psfbUnregistered v p c l => Sys2Proof.Machine.execPsfbUnregistered v p c l s
  | .unknownPt v p c pt l => Sys2Proof.Machine.execUnknownPt v p c pt l s
  | .start frameOnly => Sys2Proof.Machine.execStart frameOnly s
  | .encClear => Sys2Proof.Machine.execEncClear s
  | .encAppend size => Sys2Proof.Machine.execEncAppend size s

end Sys2Proof.Machine
end

