-- ==== Sys2Proof/Machine/HostAccess.lean ====
section
/-! DEFINITION. The host's accesses (R24, R39, R60, R61): CSR reads and writes, IBUF bytes, DTAB words, and the other
actions of the world outside: WAIT, bus accesses through HOST_MAP, the reset input. -/

namespace Sys2Proof.Machine

/-- What a 32-bit read of a CSR offset returns (R24 to R37): 0 at every offset the map does not list, which the
offsets that are no multiple of 4 are among, and at the write-only registers. -/
def csrRead (off : BitVec 8) (s : State) : Word :=
  if off = 0x00#8 then ctrlWord s
  else if off = 0x04#8 then statusWord s
  else if off = 0x08#8 then s.bufLen
  else if off = 0x0C#8 then s.offset
  else if off = 0x10#8 then s.pktCount
  else if off = 0x14#8 then s.errOffset
  else if off = 0x24#8 then s.encFields
  else if off = 0x2C#8 then s.encHdr
  else if off = 0x30#8 then s.encOffset
  else if off = 0x34#8 then encStatusWord s
  else if off = 0x38#8 then s.encCount
  else 0#32

/-- A CSR write that performs no command (R24, R25, R27, R32, R100, R355): CTRL and BUF_LEN only while BUSY = 0,
BUF_LEN only up to MAX_IBUF, every other offset without effect. -/
def csrStore (off : BitVec 8) (w : Word) (s : State) : State :=
  if off = 0x00#8 then (if s.busy then s else setFrameOnly (w.getLsbD 1) s)
  else if off = 0x08#8 then
    (if s.busy ∨ s.params.maxIbuf.toNat < w.toNat then s else setBufLen w s)
  else if off = 0x24#8 then setEncFields w s
  else s

/-- What a byte read of IBUF space returns (R60). -/
def ibufRead (a : Nat) (s : State) : Byte :=
  if a < s.params.maxIbuf.toNat then readByte s a else 0#8

/-- A byte write to IBUF space (R60): dropped while BUSY = 1 and at or above MAX_IBUF. -/
def ibufStore (a : Nat) (v : Byte) (s : State) : State :=
  if s.busy = false ∧ a < s.params.maxIbuf.toNat then writeByte a v s else s

/-- What a 32-bit read of DTAB space returns (R39, R65): 0 beyond the table and at a misaligned offset. -/
def dtabRead (off : Nat) (s : State) : Word :=
  if off % 4 = 0 ∧ off < 16 * dtabDepth s.params then dtabWord s (off / 16) (off / 4 % 4) else 0#32

/-- What a native read returns, an IBUF byte with zeros above it; none for a write (R24, R39, R60). -/
def accessValue (a : Access) (s : State) : Option Word :=
  match a with
  | .csrRead off => some (csrRead off s)
  | .ibufRead addr => some ((ibufRead addr s).setWidth 32)
  | .dtabRead off => some (dtabRead off s)
  | .csrWrite _ _ | .ibufWrite _ _ | .dtabWrite _ _ => none

/-- What a native access does to the block: a CSR write performs its command or stores its field (R100), a DTAB write is
ignored (R39), a read has no side effect (R67). -/
def accessEffect (a : Access) (s : State) : Host.Outcome State Fault Refusal :=
  match a with
  | .csrWrite off w =>
    match decodeCsrWrite off w with
    | .ok i => exec i s
    | .error _ => .next (csrStore off w s)
  | .ibufWrite addr v => .next (ibufStore addr v s)
  | .dtabWrite _ _ | .csrRead _ | .ibufRead _ | .dtabRead _ => .next s

/-- One native access of the host (R61, R68). -/
def hostAccess (a : Access) (s : State) : Host.Outcome State Fault Refusal :=
  match accessValue a s with
  | some v => .next (respond v s)
  | none => accessEffect a s

/-- A bus access does what HOST_MAP lets it do next (R61, R63): one native access, whose answer is kept, or its reply.
What HOST_MAP does not define is refused (I12). -/
def busAccess (m : Option BusStep) (b : BusAccess) (answers : List Word) (rest : List HostAction) (s : State) :
    Host.Outcome State Fault Refusal :=
  match m with
  | none => .refused (.hostMapUndefined b)
  | some (.reply pieces) => .next (respondAll pieces (setHost rest s))
  | some (.native a) =>
    accessEffect a (setHost (.bus b (answers ++ [(accessValue a s).getD 0#32]) :: rest) s)

/-- The host performs its next action (R350); with none left it does nothing. DESIGN CHOICE: a reset takes its turn in the
same queue, so it comes between two actions, not between the polls of one WAIT nor between the native accesses of one bus
access (log 8). -/
def hostStep (s : State) : Host.Outcome State Fault Refusal :=
  match s.host with
  | [] => .next s
  | .access a :: rest => hostAccess a (setHost rest s)
  | .wait :: rest => .next (respond (statusWord s) (if s.busy then s else setHost rest s))
  | .bus b answers :: rest => busAccess (Config.hostMap b answers) b answers rest s
  | .reset :: rest => .next (resetBlock (setHost rest s))

/-- The decode engine takes its step, enabled exactly when BUSY = 1 (R172): the header peek, then the meaning of the
header it finds. -/
def engineStep (s : State) : Host.Outcome State Fault Refusal :=
  if s.busy then
    match fetch s with
    | .ok i => exec i s
    | .error _ => .next (finish .invalidHeader s.offset s)
  else .next s

/-- The step of the agent the scheduler picked (R350). -/
def agentStep (a : Agent) (s : State) : Host.Outcome State Fault Refusal :=
  match a with
  | .host => hostStep s
  | .engine => engineStep s

/-- Whom the scheduler picks when no pick is listed: the engine while a run is in progress (R351), else the host. -/
def defaultAgent (s : State) : Agent :=
  if s.busy then .engine else .host

/-- Whom the scheduler picks for this step (R350). -/
def pickedAgent (s : State) : Agent :=
  match s.sched with
  | a :: _ => a
  | [] => defaultAgent s

/-- The scheduler's pick is used up. -/
def usePick (s : State) : State :=
  setSched s.sched.tail s

/-- Store a word in IBUF, big-endian, from an address on (R62). -/
def writeWord (a : Nat) (w : Word) (s : State) : State :=
  writeByte (a + 3) (w.extractLsb' 0 8) (writeByte (a + 2) (w.extractLsb' 8 8)
    (writeByte (a + 1) (w.extractLsb' 16 8) (writeByte a (w.extractLsb' 24 8) s)))

/-- Lay a header word at OFFSET and put the engine before it: the buffer ends where the word's declared length does, a
run is in progress, the scheduler picks the engine (log 10). -/
def placeHeader (w : Word) (s : State) : State :=
  let t := writeWord s.offset.toNat w s
  { t with
    busy := true
    done := false
    bufLen := s.offset + BitVec.ofNat 32 (Header.unpack w).declaredLength
    sched := .engine :: s.sched }

/-- Put a write of CTRL first among the host's actions and let the scheduler pick the host (log 10). -/
def placeCtrlWrite (w : Word) (s : State) : State :=
  { s with host := .access (.csrWrite 0x00#8 w) :: s.host, sched := .host :: s.sched }

end Sys2Proof.Machine
end

