-- ==== Sys2Proof/Machine/Step.lean ====
section
/-! DEFINITION. One step of the block and its host (R350), and where a table row's bits are placed so that the next step
runs them. -/

namespace Sys2Proof.Machine

/-- One step: the agent the scheduler picks performs its next atomic step (R350). -/
def step (s : State) : Host.Outcome State Fault Refusal :=
  agentStep (pickedAgent s) (usePick s)

/-- The state with a table row's bits placed where the next step takes its instruction from: a header word at OFFSET in
IBUF, or a write to CTRL as the host's next action (log 10). -/
def State.withFetchWord (s : State) (nbits w : Nat) : State :=
  if tableRowIsCsrWrite nbits then placeCtrlWrite (BitVec.ofNat 32 w) s else placeHeader (BitVec.ofNat 32 w) s

end Sys2Proof.Machine
end

