-- ==== Sys2Proof/Machine/DecodeAll.lean ====
section
/-! DEFINITION. DECODE_ALL, the functional statement of a run that R189 gives beside the engine's steps. -/

namespace Sys2Proof.Machine

/-- The header word at a position of a byte list (R8, R90). -/
def headerAt (buf : List Byte) (o : Nat) : Header :=
  Header.unpack (be32 (buf.getD o 0#8) (buf.getD (o + 1) 0#8) (buf.getD (o + 2) 0#8) (buf.getD (o + 3) 0#8))

/-- One element of DECODE_ALL's output, as the descriptor that holds it (R38, R189). -/
def decodedPacket (k : PacketClass) (buf : List Byte) (o : Nat) : Descriptor :=
  let h := headerAt buf o
  let dl := h.declaredLength
  let pd := padDetect h.p dl (buf.getD (o + dl - 1) 0#8)
  { hdr := h.pack
    off := BitVec.ofNat 32 o
    len := BitVec.ofNat 32 dl
    tag := classTag k
    padFlag := pd.flag
    padValid := pd.valid
    padCount := pd.count }

/-- The loop of DECODE_ALL from offset `o` with the packets decoded so far. The first argument is fuel: R178 bounds the
number of rounds, so `decodeAll` never runs out. -/
def decodeAllFrom (p : Params) (frameOnly : Bool) (buf : List Byte) :
    Nat → Nat → List Descriptor → Except (ErrCode × Nat) (List Descriptor)
  | 0, o, _ => .error (.invalidHeader, o)
  | fuel + 1, o, out =>
    let rem := buf.length - o
    let h := headerAt buf o
    let dl := h.declaredLength
    if rem < 4 then .error (.invalidHeader, o)
    else if rem < dl then .error (.packetTooShort, o)
    else
      match classify p.fbFormatMap p.unknownPtCode h.pt h.c with
      | .error e => .error (e, o)
      | .ok k =>
        match (if frameOnly then ErrCode.ok else tdVerdict k ((buf.drop o).take dl)) with
        | .ok =>
          if o + dl = buf.length then .ok (out ++ [decodedPacket k buf o])
          else decodeAllFrom p frameOnly buf fuel (o + dl) (out ++ [decodedPacket k buf o])
        | e => .error (e, o)

/-- DECODE_ALL(buf, frame_only): the packets in order, or the error and its offset (R189). -/
def decodeAll (p : Params) (frameOnly : Bool) (buf : List Byte) : Except (ErrCode × Nat) (List Descriptor) :=
  if buf.length = 0 then .error (.invalidHeader, 0)
  else decodeAllFrom p frameOnly buf (buf.length / 4 + 1) 0 []

end Sys2Proof.Machine
end

