-- ==== Sys2Proof/Machine/HostProgram.lean ====
section
/-! DEFINITION. The notation for host programs and header words (R101, R102) as lists of host actions. -/

namespace Sys2Proof.Machine

/-- `WR <csr>, <value>` (R101), the CSR by its offset (R24). -/
def wr (off : BitVec 8) (w : Word) : List HostAction :=
  [.access (.csrWrite off w)]

/-- `RD <csr>` (R101). -/
def rd (off : BitVec 8) : List HostAction :=
  [.access (.csrRead off)]

/-- `WRB <addr>, <b0> <b1> …` (R101). -/
def wrb (addr : Nat) : List Byte → List HostAction
  | [] => []
  | b :: rest => .access (.ibufWrite addr b) :: wrb (addr + 1) rest

/-- `RDD <i>.<K>` (R101). -/
def rdd (i k : Nat) : List HostAction :=
  [.access (.dtabRead (16 * i + 4 * k))]

/-- `WAIT` (R101). -/
def waitDone : List HostAction :=
  [.wait]

/-- `HDR(V, P, C, PT, L)` (R101). -/
def hdrWord (v : BitVec 2) (p : BitVec 1) (c : BitVec 5) (pt : BitVec 8) (l : BitVec 16) : Word :=
  Header.pack ⟨v, p, c, pt, l⟩

/-- `DECODE <n>` (R102). -/
def decodeProgram (n : Word) : List HostAction :=
  wr 0x08#8 n ++ wr 0x00#8 0x1#32 ++ waitDone

/-- `FRAME <n>` (R102). -/
def frameProgram (n : Word) : List HostAction :=
  wr 0x08#8 n ++ wr 0x00#8 0x3#32 ++ waitDone

/-- `APPEND <fields>, <S>` (R102). -/
def appendProgram (fields size : Word) : List HostAction :=
  wr 0x24#8 fields ++ wr 0x28#8 size

/-- `ENCNEW` (R102). -/
def encNewProgram : List HostAction :=
  wr 0x20#8 0x1#32

end Sys2Proof.Machine
end

