-- ==== Sys2Proof/Safety.lean ====
section
/-! DEFINITION. The terms in which claims about the block are stated: the legal states, what an accepting and a failing
step leave (R176, R303), and what stays unchanged. -/

namespace Sys2Proof

/-- The header an instruction stands for under a feedback map; none for a host command (R97, R99). -/
def Instr.headerUnder (m : FbFormatMap) (i : Instr) : Option Header :=
  (i.form m).getLeft?

/-- The tag number of the accepting rows (R140, R142 to R151); none for the rejecting rows and the commands. -/
def Instr.acceptedTag : Instr → Option (BitVec 4)
  | .sr _ _ _ _ => some 1#4
  | .rr _ _ _ _ => some 2#4
  | .sdes _ _ _ _ => some 3#4
  | .bye _ _ _ _ => some 4#4
  | .app _ _ _ _ => some 5#4
  | .tlfbNack _ _ _ => some 6#4
  | .psfbPli _ _ _ => some 7#4
  | .psfbFir _ _ _ => some 8#4
  | .psfbRrr _ _ _ => some 9#4
  | .xr _ _ _ _ => some 10#4
  | .tlfbUnregistered _ _ _ _ => none
  | .psfbUnregistered _ _ _ _ => none
  | .unknownPt _ _ _ _ _ => none
  | .start _ => none
  | .encClear => none
  | .encAppend _ => none

/-- The error the rejecting rows finish with (R152 to R154); none for the accepting rows and the commands. -/
def Instr.rejection (u : UnknownPtCode) : Instr → Option ErrCode
  | .tlfbUnregistered _ _ _ _ => some .wrongType
  | .psfbUnregistered _ _ _ _ => some .wrongType
  | .unknownPt _ _ _ _ _ => some (match u with | .wrongType => .wrongType | .unknownType => .unknownType)
  | .sr _ _ _ _ => none
  | .rr _ _ _ _ => none
  | .sdes _ _ _ _ => none
  | .bye _ _ _ _ => none
  | .app _ _ _ _ => none
  | .tlfbNack _ _ _ => none
  | .psfbPli _ _ _ => none
  | .psfbFir _ _ _ => none
  | .psfbRrr _ _ _ => none
  | .xr _ _ _ _ => none
  | .start _ => none
  | .encClear => none
  | .encAppend _ => none

end Sys2Proof

namespace Sys2Proof.Machine

/-- The D_INFO word R38 and R210 to R212 give a packet: PAD_COUNT, PAD_VALID, PAD_FLAG and the tag. -/
def expectedInfo (h : Header) (last : Byte) (tag : BitVec 4) : Word :=
  if h.p = 1#1 then
    0#8 ++ last ++ 0#6 ++ (if 1 ≤ last.toNat ∧ last.toNat ≤ h.declaredLength - 4 then 1#1 else 0#1) ++ 1#1 ++ 0#4 ++ tag
  else 0#28 ++ tag

/-- What an accepting step leaves (R176): the four words of descriptor PKT_COUNT, the counters, and the end of the run
when the packet ends the buffer. -/
structure Accepted (h : Header) (tag : BitVec 4) (s t : State) : Prop where
  hdr : dtabWord t s.pktCount.toNat 0 = h.pack
  off : dtabWord t s.pktCount.toNat 1 = s.offset
  len : dtabWord t s.pktCount.toNat 2 = BitVec.ofNat 32 h.declaredLength
  info : dtabWord t s.pktCount.toNat 3 =
    expectedInfo h (readByte s (s.offset.toNat + h.declaredLength - 1)) tag
  count : t.pktCount = s.pktCount + 1#32
  next : t.offset = s.offset + BitVec.ofNat 32 h.declaredLength
  ends : s.offset.toNat + h.declaredLength = s.bufLen.toNat →
    t.busy = false ∧ t.done = true ∧ t.err = .ok ∧ t.errOffset = 0#32
  goesOn : s.offset.toNat + h.declaredLength ≠ s.bufLen.toNat →
    t.busy = s.busy ∧ t.done = s.done ∧ t.err = s.err ∧ t.errOffset = s.errOffset

/-- The state a decode error leaves (R303): the run is over, the code and the failing header's offset are recorded, no
packet is reported, and everything else is as it was. -/
def failedAt (code : ErrCode) (s : State) : State :=
  { s with busy := false, done := true, err := code, errOffset := s.offset, pktCount := 0#32 }

/-- The state an encode error leaves (R236): no output is reported, and everything else is as it was. -/
def encodeFailedWith (code : ErrCode) (s : State) : State :=
  { s with encErr := code, encOffset := 0#32, encCount := 0#32, encHdr := 0#32 }

/-- The state once the host has received a value. -/
def received (v : Word) (s : State) : State :=
  { s with responses := s.responses ++ [v] }

/-- The rows of the dispatch table as R142 to R154 give them one by one, for one (Type, Count) pair: whether the row
takes the pair, and the tag or the error the row gives. -/
def dispatchRows (m : FbFormatMap) (u : UnknownPtCode) (pt c : Nat) : List (Bool × Except ErrCode (BitVec 4)) :=
  [ (pt == 200, .ok 1#4),
    (pt == 201, .ok 2#4),
    (pt == 202, .ok 3#4),
    (pt == 203, .ok 4#4),
    (pt == 204, .ok 5#4),
    (pt == 205 && c == 1, .ok 6#4),
    (pt == 206 && c == 1, .ok 7#4),
    (match m with | .doc => pt == 206 && c == 2 | .rfc => pt == 206 && c == 4, .ok 8#4),
    (match m with | .doc => pt == 206 && c == 4 | .rfc => pt == 205 && c == 5, .ok 9#4),
    (pt == 207, .ok 10#4),
    (pt == 205 && c != 1 && (match m with | .doc => true | .rfc => c != 5), .error .wrongType),
    (pt == 206 && c != 1 && c != 4 && (match m with | .doc => c != 2 | .rfc => true), .error .wrongType),
    (decide (pt < 200) || decide (207 < pt), .error (match u with | .wrongType => .wrongType | .unknownType => .unknownType)) ]

/-- The state after an ENC_APPEND of one size (R233). -/
def afterAppend (s : State) (size : Word) : State :=
  match exec (.encAppend size) s with
  | .next t => t
  | .fault _ => s
  | .refused _ => s

/-- The encode framing unit's state is the same (R230). -/
structure SameEncode (s t : State) : Prop where
  encFields : t.encFields = s.encFields
  encHdr : t.encHdr = s.encHdr
  encOffset : t.encOffset = s.encOffset
  encErr : t.encErr = s.encErr
  encCount : t.encCount = s.encCount

/-- The decode engine's registers and memories are the same (R20). -/
structure SameDecode (s t : State) : Prop where
  frameOnly : t.frameOnly = s.frameOnly
  busy : t.busy = s.busy
  done : t.done = s.done
  err : t.err = s.err
  bufLen : t.bufLen = s.bufLen
  offset : t.offset = s.offset
  pktCount : t.pktCount = s.pktCount
  errOffset : t.errOffset = s.errOffset
  ibuf : ∀ a, readByte t a = readByte s a
  dtab : ∀ i k, dtabWord t i k = dtabWord s i k

/-- What stands outside the block, and its build-time parameters, are the same. -/
structure SameWorld (s t : State) : Prop where
  params : t.params = s.params
  resets : t.resets = s.resets
  host : t.host = s.host
  sched : t.sched = s.sched
  responses : t.responses = s.responses

/-- It is the engine's turn: the scheduler picks it, or lists no pick while a run is in progress (R350, R351). -/
def engineTurn (s : State) : Prop :=
  s.sched.head? = some .engine ∨ (s.sched = [] ∧ s.busy = true)

/-- It is the host's turn. -/
def hostTurn (s : State) : Prop :=
  s.sched.head? = some .host ∨ (s.sched = [] ∧ s.busy = false)

/-- The state once the scheduler's pick is used up. -/
def afterPick (s : State) : State :=
  { s with sched := s.sched.tail }

/-- The legal states: what the rules of spec/ say of every reachable state. -/
structure Inv (s : State) : Prop where
  /-- BUSY and DONE are never both 1 (R23). -/
  control : ¬ (s.busy = true ∧ s.done = true)
  /-- While BUSY = 1, OFFSET < BUF_LEN (R177) and no error is recorded. -/
  running : s.busy = true → s.offset.toNat < s.bufLen.toNat ∧ s.err = .ok
  /-- OFFSET is a multiple of 4 (R177). -/
  aligned : s.offset.toNat % 4 = 0
  /-- OFFSET lies in IBUF (R177, R27). -/
  offsetInIbuf : s.offset.toNat ≤ s.params.maxIbuf.toNat
  /-- BUF_LEN is a legal value (R27). -/
  lengthInIbuf : s.bufLen.toNat ≤ s.params.maxIbuf.toNat
  /-- Each accepted packet took at least 4 bytes (R175). -/
  counted : 4 * s.pktCount.toNat ≤ s.offset.toNat
  /-- Without an error ERR_OFFSET reads 0 (R30). -/
  noError : s.err = .ok → s.errOffset = 0#32
  /-- After a failed run OFFSET equals ERR_OFFSET and PKT_COUNT reads 0 (R28, R29). -/
  failedRun : s.err ≠ .ok → s.done = true ∧ s.pktCount = 0#32 ∧ s.offset = s.errOffset
  /-- In IDLE no run has left anything (R23). -/
  idle : s.busy = false → s.done = false → s.offset = 0#32 ∧ s.pktCount = 0#32 ∧ s.err = .ok
  /-- The decode engine never records LengthOverflow, and UnknownType only where the parameter allows it (R300). -/
  decodeCodes : s.err ≠ .lengthOverflow ∧ (s.err = .unknownType → s.params.unknownPtCode = .unknownType)
  /-- Bits 15:0 of ENC_FIELDS read 0 (R32). -/
  fieldsReserved : s.encFields.extractLsb' 0 16 = 0#16
  /-- The encode unit's error codes (R300). -/
  encodeCodes : s.encErr = .ok ∨ s.encErr = .badLength ∨ s.encErr = .lengthOverflow
  /-- ENC_OFFSET never passes MAX_OBUF (R238) and is a multiple of 4 (R231). -/
  encodeLength : s.encOffset.toNat ≤ s.params.maxObuf.toNat ∧ s.encOffset.toNat % 4 = 0
  /-- Each appended packet has at least 4 bytes (R231). -/
  encodeCounted : 4 * s.encCount.toNat ≤ s.encOffset.toNat
  /-- A failed encode reports no output (R234, R236). -/
  encodeFailed : s.encErr ≠ .ok → s.encOffset = 0#32 ∧ s.encCount = 0#32 ∧ s.encHdr = 0#32
  /-- IBUF keeps its canonical form, inside MAX_IBUF (R40, R60). -/
  ibufWf : Memory.wf s.params.maxIbuf s.ibuf = true
  /-- DTAB keeps its canonical form, inside D_DEPTH (R38, R175). -/
  dtabWf : Dtab.wf s.params s.dtab = true

/-- The packets accepted so far lie one after another from IBUF address 0 to OFFSET (R96, R176): entry `i` starts at the
end of the entries before it, the last one ends at OFFSET, D_LEN is what the Length in D_HDR declares (R95), and the tag
is one of 1 to 10 (R140). -/
def Tiled (s : State) : Prop :=
  (s.pktCount = 0#32 → s.err = .ok → s.offset = 0#32) ∧
  ∀ i, i < s.pktCount.toNat → ∃ d, Cells.lookup s.dtab i = some d ∧
    d.len.toNat = (Header.unpack d.hdr).declaredLength ∧
    (1 ≤ d.tag.toNat ∧ d.tag.toNat ≤ 10) ∧
    (i = 0 → d.off = 0#32) ∧
    (i + 1 = s.pktCount.toNat → d.off + d.len = s.offset) ∧
    (∀ e, i + 1 < s.pktCount.toNat → Cells.lookup s.dtab (i + 1) = some e → e.off = d.off + d.len)

end Sys2Proof.Machine
end

