-- ==== Sys2Proof/Certificates/Slice0/Obligations.lean ====
section
/-! DEFINITION. The statements for the provers, each formalising or resting on rules of spec/. -/

open Sys2Proof Sys2Proof.Machine

/-- Decoding the encoding of a well-formed instruction gives the instruction back, header words and commands alike,
under both feedback maps (R90, R97, R99, R100). The bit positions inside byte 0 are general knowledge of the spec (G1,
log 11), and bits 31:2 of CTRL are written 0 (log 18). -/
def Obligations.DecodeOfEncodeIsIdentity : Prop :=
  ∀ (m : FbFormatMap) (i : Instr), i.wellFormed m = true → decode m (encode m i) = .ok i

/-- Every 32-bit word is the header word of exactly one well-formed instruction, which encodes to that word (R98, R156). -/
def Obligations.EveryHeaderWordHasOneInstruction : Prop :=
  ∀ (m : FbFormatMap) (w : Word),
    (decodeHeaderWord m w).wellFormed m = true ∧ encode m (decodeHeaderWord m w) = .header w ∧
    ∀ i : Instr, i.wellFormed m = true → encode m i = .header w → i = decodeHeaderWord m w

/-- HDR_DECODE of HDR_ENCODE gives the fields back, for all fields (R125). -/
def Obligations.HeaderCodecRoundTrip : Prop :=
  ∀ h : Header, hdrDecode (hdrEncode h) 4 = .ok h

/-- HDR_DECODE reads the first four bytes and nothing else: two operands that agree on them, each with at least four
bytes available, decode alike, and with fewer than four available it fails whatever the bytes (R123). -/
def Obligations.HeaderPeekReadsFourBytes : Prop :=
  (∀ (b0 b1 b2 b3 : Byte) (r r' : List Byte) (n n' : Nat), 4 ≤ n → 4 ≤ n' →
    hdrDecode (b0 :: b1 :: b2 :: b3 :: r) n = hdrDecode (b0 :: b1 :: b2 :: b3 :: r') n') ∧
  ∀ (b : List Byte) (n : Nat), n < 4 → hdrDecode b n = .error .invalidHeader

/-- The fields of the header four bytes hold: Version, Padding and Count in byte 0 from the top down, the Packet Type in
byte 1, the Length big-endian in bytes 2 and 3 (R62, R90, R120). The positions in byte 0 are the spec's general
knowledge (G1, log 11). -/
def Obligations.HeaderFieldsComeFromTheirBytes : Prop :=
  ∀ (b0 b1 b2 b3 : Byte) (r : List Byte) (n : Nat), 4 ≤ n →
    ∃ h, hdrDecode (b0 :: b1 :: b2 :: b3 :: r) n = .ok h ∧
      h.v.toNat = b0.toNat / 64 ∧ h.p.toNat = b0.toNat / 32 % 2 ∧ h.c.toNat = b0.toNat % 32 ∧
      h.pt = b1 ∧ h.l.toNat = b2.toNat * 256 + b3.toNat

/-- HDR_ENCODE packs V * 2^30 + P * 2^29 + C * 2^24 + PT * 2^16 + L and returns its bytes, most significant first
(R124). -/
def Obligations.HeaderEncodeIsWeightedSum : Prop :=
  ∀ h : Header,
    h.pack.toNat = h.v.toNat * 2 ^ 30 + h.p.toNat * 2 ^ 29 + h.c.toNat * 2 ^ 24 + h.pt.toNat * 2 ^ 16 + h.l.toNat ∧
    (hdrEncode h).map BitVec.toNat =
      [h.pack.toNat / 2 ^ 24, h.pack.toNat / 2 ^ 16 % 2 ^ 8, h.pack.toNat / 2 ^ 8 % 2 ^ 8, h.pack.toNat % 2 ^ 8]

/-- CLASSIFY is total and unambiguous: for every (Type, Count) pair, feedback map and UNKNOWN_PT_CODE, exactly one row of
R142 to R154 takes the pair, and CLASSIFY gives that row's tag or error (R141, R156). -/
def Obligations.ClassifyTakesExactlyOneRow : Prop :=
  ∀ (m : FbFormatMap) (u : UnknownPtCode) (pt : BitVec 8) (c : BitVec 5),
    ((dispatchRows m u pt.toNat c.toNat).filter (fun r => r.1)).map (fun r => r.2) =
      [(classify m u pt c).map classTag]

/-- For Packet Types 200 to 204 and 207 CLASSIFY does not read C (R155). -/
def Obligations.ClassifyIgnoresCountOfReports : Prop :=
  ∀ (m : FbFormatMap) (u : UnknownPtCode) (pt : BitVec 8) (c c' : BitVec 5),
    pt ∈ [200#8, 201#8, 202#8, 203#8, 204#8, 207#8] → classify m u pt c = classify m u pt c'

/-- The instruction a header word decodes to does what FRAME_STEP does with CLASSIFY's result for its Type and Count,
under the instance's own parameters (R172, R174). -/
def Obligations.ExecFollowsClassify : Prop :=
  ∀ (s : State) (w : Word),
    exec (decodeHeaderWord s.params.fbFormatMap w) s =
      .next (match classify s.params.fbFormatMap s.params.unknownPtCode (Header.unpack w).pt (Header.unpack w).c with
        | .ok k => frameAs k (Header.unpack w) s
        | .error e => frameReject e (Header.unpack w) s)

/-- Header words written out from the examples of R142 to R154 decode to the instructions they stand for. -/
def Obligations.ExampleWordsDecode : Prop :=
  decodeHeaderWord .doc 0x80C80006#32 = .sr 2#2 0#1 0#5 6#16 ∧
  decodeHeaderWord .doc 0x81C90007#32 = .rr 2#2 0#1 1#5 7#16 ∧
  decodeHeaderWord .doc 0x82CE0004#32 = .psfbFir 2#2 0#1 4#16 ∧
  decodeHeaderWord .rfc 0x84CE0002#32 = .psfbFir 2#2 0#1 2#16 ∧
  decodeHeaderWord .rfc 0x85CD0002#32 = .psfbRrr 2#2 0#1 2#16 ∧
  decodeHeaderWord .doc 0x85CD0002#32 = .tlfbUnregistered 2#2 0#1 5#5 2#16 ∧
  decodeHeaderWord .doc 0x80D00001#32 = .unknownPt 2#2 0#1 0#5 208#8 1#16 ∧
  decode .doc (.csrWrite 0x00#8 3#32) = .ok (.start true) ∧
  decode .doc (.csrWrite 0x20#8 1#32) = .ok .encClear ∧
  decode .doc (.csrWrite 0x28#8 32#32) = .ok (.encAppend 32#32)

/-- On the engine's turn, with a run in progress and a header available, the step is the meaning of the instruction the
four bytes at OFFSET decode to, a well-formed one (R172, R350). That a list of picks stands for the scheduler and the
step uses one up is the model's choice (log 2). -/
def Obligations.StepRunsHeaderAtOffset : Prop :=
  ∀ s : State, engineTurn s → s.busy = true → 4 ≤ remaining s →
    ∃ i, decode s.params.fbFormatMap (.header (be32 (readByte s s.offset.toNat) (readByte s (s.offset.toNat + 1))
        (readByte s (s.offset.toNat + 2)) (readByte s (s.offset.toNat + 3)))) = .ok i ∧
      i.wellFormed s.params.fbFormatMap = true ∧ step s = exec i (afterPick s)

/-- On the host's turn the step performs the host's next native access, and a CSR write that decodes to a command runs
that command (R100, R350). The list of actions, of which the step uses up the first, and the list of picks, of which it
uses up one, are the model's choices (log 1, log 2). -/
def Obligations.StepRunsHostAccess : Prop :=
  ∀ (s : State) (a : Access) (rest : List HostAction), hostTurn s → s.host = .access a :: rest →
    step s = hostAccess a { afterPick s with host := rest } ∧
    ∀ off w i, a = .csrWrite off w → decode s.params.fbFormatMap (.csrWrite off w) = .ok i →
      step s = exec i { afterPick s with host := rest }

/-- With fewer than four bytes left the header peek finishes the run with InvalidHeader at OFFSET (R171, R192, R303). -/
def Obligations.PeekBelowFourBytesFails : Prop :=
  ∀ s : State, engineTurn s → s.busy = true → remaining s < 4 →
    step s = .next (failedAt .invalidHeader (afterPick s))

/-- With no run in progress and nothing for the host to do, the block holds its state (R313). -/
def Obligations.IdleBlockHoldsState : Prop :=
  ∀ s : State, s.busy = false → s.host = [] → step s = .next (afterPick s)

/-- WAIT reads STATUS and stays the host's next action while BUSY = 1 (R101). The action queue is the model's (log 1). -/
def Obligations.WaitPollsStatus : Prop :=
  ∀ (s : State) (rest : List HostAction), hostTurn s → s.host = .wait :: rest →
    step s = .next (received (statusWord s) { afterPick s with host := if s.busy then s.host else rest })

/-- A packet that declares more bytes than remain finishes the run with PacketTooShort at OFFSET, whatever its class:
the bounds check comes before dispatch (R173, R304). -/
def Obligations.TruncatedPacketFails : Prop :=
  ∀ (s : State) (i : Instr) (h : Header), i.headerUnder s.params.fbFormatMap = some h →
    remaining s < h.declaredLength → exec i s = .next (failedAt .packetTooShort s)

/-- With FRAME_ONLY = 1, every packet of an accepted class (SR, RR, SDES, BYE, APP, TLFB_NACK, PSFB_PLI, PSFB_FIR,
PSFB_RRR, XR) that fits the buffer is accepted: its descriptor is written with the class's tag and the padding
detector's result, whatever that is, the counters advance, and the run finishes OK exactly at the buffer's end
(R140, R142 to R151, R172, R176, R210 to R214). -/
def Obligations.FrameOnlyRunAcceptsPacket : Prop :=
  ∀ (s : State) (i : Instr) (h : Header) (tag : BitVec 4),
    i.headerUnder s.params.fbFormatMap = some h → i.acceptedTag = some tag →
    s.frameOnly = true → h.declaredLength ≤ remaining s →
    ∃ t, exec i s = .next t ∧ Accepted h tag s t

/-- With FRAME_ONLY = 0, the per-type decoder's verdict on exactly the packet's window decides: OK accepts the packet,
any other verdict finishes the run with its code at OFFSET (R172, R180). -/
def Obligations.TypeDecoderDecidesAcceptance : Prop :=
  ∀ (s : State) (i : Instr) (h : Header) (k : PacketClass),
    i.headerUnder s.params.fbFormatMap = some h → i.acceptedTag = some (classTag k) →
    s.frameOnly = false → h.declaredLength ≤ remaining s →
    ∃ t, exec i s = .next t ∧
      if tdVerdict k (memRead s s.offset.toNat h.declaredLength) = .ok then Accepted h (classTag k) s t
      else t = failedAt (tdVerdict k (memRead s s.offset.toNat h.declaredLength)) s

/-- TLFB_UNREGISTERED and PSFB_UNREGISTERED finish the run with WrongType, UNKNOWN_PT with UNKNOWN_PT_CODE, at OFFSET,
when the declared bytes are there (R152, R153, R154, R303). -/
def Obligations.RejectedClassFinishesRun : Prop :=
  ∀ (s : State) (i : Instr) (h : Header) (e : ErrCode),
    i.headerUnder s.params.fbFormatMap = some h → i.rejection s.params.unknownPtCode = some e →
    h.declaredLength ≤ remaining s → exec i s = .next (failedAt e s)

/-- The frame of the thirteen header instructions: no CSR but STATUS, OFFSET, PKT_COUNT and ERR_OFFSET changes, no byte
of IBUF, no entry of DTAB but PKT_COUNT's, nothing of the encode unit (R39, R40, R176, R230). -/
def Obligations.HeaderInstructionFrame : Prop :=
  ∀ (s t : State) (i : Instr) (h : Header), i.headerUnder s.params.fbFormatMap = some h → exec i s = .next t →
    SameEncode s t ∧ SameWorld s t ∧ t.frameOnly = s.frameOnly ∧ t.bufLen = s.bufLen ∧
    (∀ a, readByte t a = readByte s a) ∧
    ∀ j k, j ≠ s.pktCount.toNat → dtabWord t j k = dtabWord s j k

/-- A FIR window with both SSRC fields whose FCI is empty or no multiple of 8 bytes fails BadLength at OFFSET (R182). -/
def Obligations.FirWithBadFciFails : Prop :=
  ∀ (s : State) (v : BitVec 2) (p : BitVec 1) (l : BitVec 16),
    s.frameOnly = false → 12 ≤ (l.toNat + 1) * 4 →
    ((l.toNat + 1) * 4 - 12 = 0 ∨ ((l.toNat + 1) * 4 - 12) % 8 ≠ 0) → (l.toNat + 1) * 4 ≤ remaining s →
    exec (.psfbFir v p l) s = .next (failedAt .badLength s)

/-- An APP window with fewer than 4 bytes left for its Name, after the header and the SSRC, fails, with an error verdict
the spec does not name (R186). That the Name follows the SSRC is the model's reading (log 5). -/
def Obligations.AppWithoutNameFails : Prop :=
  ∀ (s : State) (v : BitVec 2) (p : BitVec 1) (c : BitVec 5) (l : BitVec 16),
    s.frameOnly = false → (l.toNat + 1) * 4 < 12 → (l.toNat + 1) * 4 ≤ remaining s →
    ∃ e, (e = .packetTooShort ∨ e = .wrongType ∨ e = .badLength ∨ e = .contentError) ∧
      exec (.app v p c l) s = .next (failedAt e s)

/-- The per-type decoder's verdicts keep their contract, clause by clause. A verdict is one of the five of R180. A FIR
window with both SSRC fields whose FCI is empty or no multiple of 8 bytes is BadLength (R182). A window shorter than the
header and the class's minimum body is PacketTooShort, and one whose variable-length section is no multiple of its stride,
or holds no entry where one is mandatory, is BadLength, with 8 bytes a FIR entry and 24 a reception report (R183); where
the type mismatches too, WrongType may come first, and R182 comes before either. A Type and Count the decoder does not
expect is WrongType, unless the window's length is wrong too, and WrongType needs such a mismatch or an APP window too
short for its Name (R185). An APP window too short for its Name is not OK (R186). Which window has which section, and the
order of a wrong length and a wrong type, are the model's free values (log 5). -/
def Obligations.TypeDecoderKeepsContract : Prop :=
  (tdStride .psfbFir = 8 ∧ tdStride .sr = 24 ∧ tdStride .rr = 24) ∧
  ∀ (k : PacketClass) (win : List Byte),
    (tdVerdict k win = .ok ∨ tdVerdict k win = .packetTooShort ∨ tdVerdict k win = .wrongType ∨
      tdVerdict k win = .badLength ∨ tdVerdict k win = .contentError) ∧
    (k = .psfbFir → 12 ≤ win.length → (win.length - 12 = 0 ∨ (win.length - 12) % 8 ≠ 0) →
      tdVerdict k win = .badLength) ∧
    (win.length < 4 + tdMinimum k →
      tdVerdict k win = .packetTooShort ∨ (tdTypeMatches k win = false ∧ tdVerdict k win = .wrongType) ∨
        (k = .psfbFir ∧ 12 ≤ win.length ∧ (win.length - 12 = 0 ∨ (win.length - 12) % 8 ≠ 0) ∧
          tdVerdict k win = .badLength)) ∧
    (tdStride k = 0 ∨
      (tdSection k win % tdStride k = 0 ∧ (tdMandatory k = true → tdStride k ≤ tdSection k win)) ∨
      tdVerdict k win = .badLength ∨ (win.length < 4 + tdMinimum k ∧ tdVerdict k win = .packetTooShort) ∨
      (tdTypeMatches k win = false ∧ tdVerdict k win = .wrongType)) ∧
    (tdTypeMatches k win = true ∨ tdVerdict k win = .wrongType ∨
      (win.length < 4 + tdMinimum k ∧ tdVerdict k win = .packetTooShort) ∨
      (tdSectionBad k win = true ∧ tdVerdict k win = .badLength)) ∧
    (tdVerdict k win ≠ .wrongType ∨ tdTypeMatches k win = false ∨ (k = .app ∧ win.length < 12)) ∧
    (k = .app → win.length < 12 → tdVerdict k win ≠ .ok)

/-- PAD_DETECT: the flag is P, the count is the last byte when P = 1 and 0 otherwise, and it is valid exactly when
P = 1 and 1 ≤ count ≤ dl - 4 (R210 to R213). That the last byte holds the count is the spec's general knowledge (G2,
log 11). -/
def Obligations.PadDetectorReports : Prop :=
  ∀ (p : BitVec 1) (dl : Nat) (last : Byte),
    ((padDetect p dl last).flag = true ↔ p = 1#1) ∧
    (padDetect p dl last).count = (if p = 1#1 then last else 0#8) ∧
    ((padDetect p dl last).valid = true ↔
      p = 1#1 ∧ 1 ≤ (padDetect p dl last).count.toNat ∧ (padDetect p dl last).count.toNat ≤ dl - 4)

/-- The D_INFO word: TAG in bits 3:0, PAD_FLAG in bit 8, PAD_VALID in bit 9, PAD_COUNT in bits 23:16, every other bit 0
(R38). -/
def Obligations.DescriptorInfoLayout : Prop :=
  ∀ d : Descriptor,
    (descriptorWord d 3).extractLsb' 0 4 = d.tag ∧ (descriptorWord d 3).extractLsb' 4 4 = 0#4 ∧
    (descriptorWord d 3).getLsbD 8 = d.padFlag ∧ (descriptorWord d 3).getLsbD 9 = d.padValid ∧
    (descriptorWord d 3).extractLsb' 10 6 = 0#6 ∧ (descriptorWord d 3).extractLsb' 16 8 = d.padCount ∧
    (descriptorWord d 3).extractLsb' 24 8 = 0#8

/-- The decode engine's stop primitive: finish(OK, off) keeps OFFSET and PKT_COUNT and clears ERR_OFFSET, finish with an
error records the offset and reports no packet; nothing else changes (R303). -/
def Obligations.FinishRecordsResult : Prop :=
  ∀ (code : ErrCode) (off : Word) (s : State),
    finish code off s =
      if code = .ok then { s with busy := false, done := true, err := .ok, errOffset := 0#32 }
      else { s with busy := false, done := true, err := code, errOffset := off, offset := off, pktCount := 0#32 }

/-- START: ignored while BUSY = 1; otherwise the old result is cleared and FRAME_ONLY stored, and an empty buffer
finishes at once with InvalidHeader at 0, any other begins a run. BUF_LEN, IBUF, DTAB and the encode unit stay. It is the
write of w to CTRL with w[0] = 1, FRAME_ONLY being w[1] (R170). -/
def Obligations.StartBeginsRunOrFinishes : Prop :=
  (∀ (s : State) (f : Bool),
    exec (.start f) s = .next
      (if s.busy then s
       else if s.bufLen = 0#32 then
         { s with frameOnly := f, busy := false, done := true, err := .invalidHeader, offset := 0#32,
                  pktCount := 0#32, errOffset := 0#32 }
       else
         { s with frameOnly := f, busy := true, done := false, err := .ok, offset := 0#32, pktCount := 0#32,
                  errOffset := 0#32 })) ∧
  ∀ (s : State) (w : Word), w.getLsbD 0 = true →
    hostAccess (.csrWrite 0x00#8 w) s = exec (.start (w.getLsbD 1)) s

/-- LEN_ENCODE: L is the Length exactly when S = (L + 1) * 4; BadLength exactly for 0 and sizes that are no multiple of 4;
LengthOverflow exactly for multiples of 4 above 262144; no other outcome (R231). -/
def Obligations.LengthFieldOfSize : Prop :=
  ∀ size : Word,
    (∀ l : BitVec 16, lenEncode size = .ok l ↔ size.toNat = (l.toNat + 1) * 4) ∧
    (lenEncode size = .error .badLength ↔ size.toNat = 0 ∨ size.toNat % 4 ≠ 0) ∧
    (lenEncode size = .error .lengthOverflow ↔ size.toNat % 4 = 0 ∧ 262144 < size.toNat)

/-- ENC_APPEND of (L + 1) * 4 bytes, with no error set and room for them: ENC_HDR is ENC_FIELDS' upper half with L below
it, ENC_OFFSET and ENC_COUNT advance, nothing else changes (R233, R238). -/
def Obligations.AppendFramesPacket : Prop :=
  ∀ (s : State) (l : BitVec 16), s.encErr = .ok →
    s.encOffset.toNat + (l.toNat + 1) * 4 ≤ s.params.maxObuf.toNat →
    exec (.encAppend (BitVec.ofNat 32 ((l.toNat + 1) * 4))) s = .next
      { s with encHdr := s.encFields.extractLsb' 16 16 ++ l,
               encOffset := s.encOffset + BitVec.ofNat 32 ((l.toNat + 1) * 4),
               encCount := s.encCount + 1#32 }

/-- The failures of ENC_APPEND, in their order: BadLength for a size that is 0 or no multiple of 4, LengthOverflow for
one past 262144, LengthOverflow for one past MAX_OBUF; each reports no output and changes nothing else (R231, R233,
R236, R238, R304). -/
def Obligations.AppendFailsWithCode : Prop :=
  ∀ (s : State) (size : Word), s.encErr = .ok →
    (size.toNat = 0 ∨ size.toNat % 4 ≠ 0 → exec (.encAppend size) s = .next (encodeFailedWith .badLength s)) ∧
    (size.toNat % 4 = 0 → 262144 < size.toNat →
      exec (.encAppend size) s = .next (encodeFailedWith .lengthOverflow s)) ∧
    (size.toNat ≠ 0 → size.toNat % 4 = 0 → size.toNat ≤ 262144 →
      s.params.maxObuf.toNat < s.encOffset.toNat + size.toNat →
      exec (.encAppend size) s = .next (encodeFailedWith .lengthOverflow s))

/-- Once ENC_ERR is set every ENC_APPEND has no effect, and no instruction but ENC_CLEAR changes ENC_ERR; the append that
sets it reports no partial output (R234). -/
def Obligations.AppendIgnoredOnceFailed : Prop :=
  (∀ (s : State) (size : Word), s.encErr ≠ .ok → exec (.encAppend size) s = .next s) ∧
  (∀ (s t : State) (i : Instr), s.encErr ≠ .ok → i ≠ .encClear → exec i s = .next t → t.encErr = s.encErr) ∧
  ∀ (s t : State) (size : Word), s.encErr = .ok → exec (.encAppend size) s = .next t → t.encErr ≠ .ok →
    t.encOffset = 0#32 ∧ t.encCount = 0#32

/-- ENC_CLEAR, the write of a word with bit 0 set to ENC_CTRL, zeroes ENC_ERR, ENC_OFFSET, ENC_COUNT and ENC_HDR in every
state and leaves all else, ENC_FIELDS among it; no other instruction clears a set ENC_ERR (R232). -/
def Obligations.ClearStartsNewOutput : Prop :=
  (∀ s : State, exec .encClear s = .next
    { s with encErr := .ok, encOffset := 0#32, encCount := 0#32, encHdr := 0#32 }) ∧
  (∀ (s : State) (w : Word), w.getLsbD 0 = true → hostAccess (.csrWrite 0x20#8 w) s = exec .encClear s) ∧
  ∀ (s t : State) (i : Instr), s.encErr ≠ .ok → exec i s = .next t → t.encErr = .ok → i = .encClear

/-- Every header word the encode unit produces declares exactly the appended size and carries the V, P, C and PT of
ENC_FIELDS (R233, R237). -/
def Obligations.EncodedHeaderDeclaresSize : Prop :=
  ∀ (s t : State) (size : Word), s.encErr = .ok → exec (.encAppend size) s = .next t → t.encErr = .ok →
    (Header.unpack t.encHdr).declaredLength = size.toNat ∧
    { Header.unpack t.encHdr with l := (Header.unpack s.encFields).l } = Header.unpack s.encFields

/-- The encode unit and the decode engine are independent: the encode commands change no decode state, and what they
leave of the encode unit depends on its own state and MAX_OBUF only, so not on BUSY (R230). -/
def Obligations.EncodeIndependentOfDecode : Prop :=
  ∀ (s s' t t' : State) (i : Instr), (i = .encClear ∨ ∃ size, i = .encAppend size) →
    exec i s = .next t →
    SameDecode s t ∧ SameWorld s t ∧ t.encFields = s.encFields ∧
    (SameEncode s s' → s'.params.maxObuf = s.params.maxObuf → exec i s' = .next t' → SameEncode t t')

/-- The sizes of successful appends add up: after any sequence of appends that sets no error, ENC_OFFSET has grown by
their sum, without wrapping, and ENC_COUNT by their number (R235, R239). -/
def Obligations.AppendedSizesAddUp : Prop :=
  ∀ (sizes : List Word) (s : State), s.encErr = .ok → (sizes.foldl afterAppend s).encErr = .ok →
    (sizes.foldl afterAppend s).encOffset.toNat = s.encOffset.toNat + (sizes.map BitVec.toNat).sum ∧
    (sizes.foldl afterAppend s).encCount = s.encCount + BitVec.ofNat 32 sizes.length

/-- The words STATUS, ENC_STATUS and CTRL read as: their fields at their bits, every other bit 0, START reading 0
(R25, R26, R36); and the numbers the error codes have in ERR and ENC_ERR (R300). -/
def Obligations.StatusWordLayout : Prop :=
  (errNumber .ok = 0#4 ∧ errNumber .invalidHeader = 1#4 ∧ errNumber .packetTooShort = 2#4 ∧
    errNumber .wrongType = 3#4 ∧ errNumber .badLength = 4#4 ∧ errNumber .unknownType = 5#4 ∧
    errNumber .contentError = 6#4 ∧ errNumber .lengthOverflow = 7#4) ∧
  ∀ s : State,
    statusWord s = (errNumber s.err).setWidth 32 <<< 8 ||| (if s.done then 2#32 else 0#32) |||
      (if s.busy then 1#32 else 0#32) ∧
    encStatusWord s = (errNumber s.encErr).setWidth 32 <<< 8 ∧
    ctrlWord s = (if s.frameOnly then 2#32 else 0#32)

/-- What a read of each CSR offset returns: the listed registers, and 0 at every other offset, so at the reserved,
unmapped, misaligned and write-only ones. A read changes nothing else (R24, R67). The response list is the model's
(log 9). -/
def Obligations.CsrReadReturnsRegister : Prop :=
  ∀ s : State,
    hostAccess (.csrRead 0x00#8) s = .next (received (ctrlWord s) s) ∧
    hostAccess (.csrRead 0x04#8) s = .next (received (statusWord s) s) ∧
    hostAccess (.csrRead 0x08#8) s = .next (received s.bufLen s) ∧
    hostAccess (.csrRead 0x0C#8) s = .next (received s.offset s) ∧
    hostAccess (.csrRead 0x10#8) s = .next (received s.pktCount s) ∧
    hostAccess (.csrRead 0x14#8) s = .next (received s.errOffset s) ∧
    hostAccess (.csrRead 0x24#8) s = .next (received s.encFields s) ∧
    hostAccess (.csrRead 0x2C#8) s = .next (received s.encHdr s) ∧
    hostAccess (.csrRead 0x30#8) s = .next (received s.encOffset s) ∧
    hostAccess (.csrRead 0x34#8) s = .next (received (encStatusWord s) s) ∧
    hostAccess (.csrRead 0x38#8) s = .next (received s.encCount s) ∧
    ∀ off : BitVec 8,
      off ∉ [0x00#8, 0x04#8, 0x08#8, 0x0C#8, 0x10#8, 0x14#8, 0x24#8, 0x2C#8, 0x30#8, 0x34#8, 0x38#8] →
      hostAccess (.csrRead off) s = .next (received 0#32 s)

/-- What the CSR writes that are no commands store: CTRL with bit 0 clear stores FRAME_ONLY, BUF_LEN a legal length, both
only while BUSY = 0; ENC_FIELDS its upper half; ENC_CTRL with bit 0 clear and every other offset nothing (R24, R25, R27,
R31, R32, R100). -/
def Obligations.PlainCsrWriteStoresField : Prop :=
  ∀ (s : State) (w : Word),
    (w.getLsbD 0 = false → hostAccess (.csrWrite 0x00#8 w) s =
      .next (if s.busy then s else { s with frameOnly := w.getLsbD 1 })) ∧
    hostAccess (.csrWrite 0x08#8 w) s =
      .next (if s.busy = false ∧ w.toNat ≤ s.params.maxIbuf.toNat then { s with bufLen := w } else s) ∧
    hostAccess (.csrWrite 0x24#8 w) s = .next { s with encFields := w &&& 0xFFFF0000#32 } ∧
    (w.getLsbD 0 = false → hostAccess (.csrWrite 0x20#8 w) s = .next s) ∧
    ∀ off : BitVec 8, off ∉ [0x00#8, 0x08#8, 0x20#8, 0x24#8, 0x28#8] → hostAccess (.csrWrite off w) s = .next s

/-- While BUSY = 1 a write to CTRL or BUF_LEN has no effect, STATUS and the read-only registers ignore writes in any
state, and the encode unit's registers take theirs as if BUSY were 0 (R355). -/
def Obligations.BusyDropsControlWrites : Prop :=
  (∀ (s : State) (w : Word), s.busy = true →
    hostAccess (.csrWrite 0x00#8 w) s = .next s ∧ hostAccess (.csrWrite 0x08#8 w) s = .next s) ∧
  (∀ (s : State) (w : Word) (off : BitVec 8),
    off ∈ [0x04#8, 0x0C#8, 0x10#8, 0x14#8, 0x2C#8, 0x30#8, 0x34#8, 0x38#8] → hostAccess (.csrWrite off w) s = .next s) ∧
  ∀ (s t t' : State) (w : Word) (off : BitVec 8), s.busy = true → off ∈ [0x20#8, 0x24#8, 0x28#8] →
    hostAccess (.csrWrite off w) s = .next t → hostAccess (.csrWrite off w) { s with busy := false } = .next t' →
    SameEncode t' t

/-- IBUF as the host sees it: a byte written below MAX_IBUF while BUSY = 0 is read back and no other byte or register
changes; at or above MAX_IBUF a write has no effect and a read returns 0; while BUSY = 1 a write has no effect (R60). -/
def Obligations.HostReadsAndWritesIbuf : Prop :=
  ∀ (s : State) (a : Nat) (v : Byte),
    (s.busy = false → a < s.params.maxIbuf.toNat →
      ∃ t, hostAccess (.ibufWrite a v) s = .next t ∧ readByte t a = v ∧ (∀ b, b ≠ a → readByte t b = readByte s b) ∧
        { t with ibuf := s.ibuf } = s) ∧
    (s.busy = true → hostAccess (.ibufWrite a v) s = .next s) ∧
    (s.params.maxIbuf.toNat ≤ a →
      hostAccess (.ibufWrite a v) s = .next s ∧ hostAccess (.ibufRead a) s = .next (received 0#32 s)) ∧
    (a < s.params.maxIbuf.toNat → hostAccess (.ibufRead a) s = .next (received ((readByte s a).setWidth 32) s))

/-- DTAB as the host sees it: writes are ignored; word K of entry i is read at 16 i + 4 K; at a misaligned offset, and at
or beyond 16 D_DEPTH, a read returns 0 (R38, R39, R65). -/
def Obligations.HostReadsDtab : Prop :=
  ∀ s : State,
    (∀ off w, hostAccess (.dtabWrite off w) s = .next s) ∧
    (∀ i k, i < s.params.maxIbuf.toNat / 4 → k < 4 →
      hostAccess (.dtabRead (16 * i + 4 * k)) s = .next (received (dtabWord s i k) s)) ∧
    (∀ off, off % 4 ≠ 0 ∨ 16 * (s.params.maxIbuf.toNat / 4) ≤ off →
      hostAccess (.dtabRead off) s = .next (received 0#32 s))

/-- The values R42 gives every register after reset. -/
def Obligations.ResetValues : Prop :=
  State.reset.frameOnly = false ∧ State.reset.busy = false ∧ State.reset.done = false ∧ State.reset.err = .ok ∧
  State.reset.bufLen = 0#32 ∧ State.reset.offset = 0#32 ∧ State.reset.pktCount = 0#32 ∧
  State.reset.errOffset = 0#32 ∧ State.reset.encFields = 0x80000000#32 ∧ State.reset.encHdr = 0#32 ∧
  State.reset.encOffset = 0#32 ∧ State.reset.encErr = .ok ∧ State.reset.encCount = 0#32

/-- The reset input gives every register its reset value in any state, a run in progress abandoned, and IBUF and DTAB
unspecified contents anew (R42, R340). That the host, the schedule and the parameters stay is the model's (log 8). -/
def Obligations.ResetRestoresRegisters : Prop :=
  ∀ (s : State) (rest : List HostAction), hostTurn s → s.host = .reset :: rest →
    step s = .next { State.reset with params := s.params, resets := s.resets + 1, host := rest,
                                      sched := s.sched.tail, responses := s.responses }

/-- A START right after reset finishes with InvalidHeader at offset 0, whatever IBUF holds (R341). -/
def Obligations.StartAfterResetFails : Prop :=
  ∀ (f : Bool) (mem : List Host.Cell),
    exec (.start f) { State.reset with ibuf := mem } =
      .next { State.reset with ibuf := mem, frameOnly := f, done := true, err := .invalidHeader }

/-- The state after reset is legal, and no packet lies in it (R42, R23). -/
def Obligations.LegalAtReset : Prop :=
  Inv State.reset ∧ Tiled State.reset

/-- Every step from a legal state, of the host or of the engine, leads to a legal state: the flags and codes, OFFSET below
BUF_LEN during a run, the counters, the reserved fields, MAX_IBUF and MAX_OBUF respected, IBUF and DTAB canonical
(R23, R26 to R38, R175, R177, R300). -/
def Obligations.StepKeepsLegal : Prop :=
  ∀ s t : State, Inv s → step s = .next t → Inv t

/-- Every step keeps the accepted packets tiled: the descriptors lie end to end from IBUF address 0 to OFFSET, each as
long as its own header word declares, with a tag from 1 to 10 (R95, R96, R140, R176). -/
def Obligations.StepKeepsDescriptorsTiled : Prop :=
  ∀ s t : State, Inv s → Tiled s → step s = .next t → Tiled t

/-- No step changes the build-time parameters, the dispatch table's among them (R6, R158). -/
def Obligations.StepKeepsParameters : Prop :=
  ∀ s t : State, step s = .next t → t.params = s.params

/-- While a run is in progress no step of the host or the engine changes the run's input, IBUF, BUF_LEN and FRAME_ONLY,
unless the step is the reset (R60, R72, R355). -/
def Obligations.RunInputIsFrozen : Prop :=
  ∀ s t : State, s.busy = true → ¬ (hostTurn s ∧ s.host.head? = some .reset) → step s = .next t →
    t.bufLen = s.bufLen ∧ t.frameOnly = s.frameOnly ∧ ∀ a, readByte t a = readByte s a

/-- Only an engine step of a run, and only at entry PKT_COUNT, or the step that resets the block, changes DTAB (R39). -/
def Obligations.OnlyEngineWritesDtab : Prop :=
  ∀ s t : State, step s = .next t → ¬ (hostTurn s ∧ s.host.head? = some .reset) →
    (∀ j k, j ≠ s.pktCount.toNat → dtabWord t j k = dtabWord s j k) ∧
    (¬ engineTurn s ∨ s.busy = false → ∀ j k, dtabWord t j k = dtabWord s j k)

/-- No step faults, and a step is refused only for a bus access that HOST_MAP does not define, or not to its end (R61,
R70). -/
def Obligations.StepStopsOnlyOnUndefinedBusAccess : Prop :=
  ∀ s : State, (∃ t, step s = .next t) ∨
    ∃ b answers, step s = .refused (.hostMapUndefined b) ∧ hostTurn s ∧ s.host.head? = some (.bus b answers) ∧
      Config.hostMap b answers = none

/-- An engine step of a run ends the run, or accepts one more packet and advances OFFSET by at least 4 (R175, R178, R179). -/
def Obligations.EngineStepMakesProgress : Prop :=
  ∀ s t : State, Inv s → engineTurn s → s.busy = true → step s = .next t →
    t.busy = false ∨
    (t.busy = true ∧ s.offset.toNat + 4 ≤ t.offset.toNat ∧ t.pktCount = s.pktCount + 1#32)

/-- A run left alone by the host ends within floor(BUF_LEN / 4) + 1 steps of the engine (R178). -/
def Obligations.RunEndsWithinBound : Prop :=
  ∀ s : State, Inv s → s.busy = true → s.host = [] → s.sched = [] →
    ∃ t, Host.Core.run core (s.bufLen.toNat / 4 + 1) s = .next t ∧ t.busy = false ∧ t.done = true

/-- A run computes DECODE_ALL: from any state with no run in progress, START and the engine's steps end with ERR = OK,
PKT_COUNT = |out| and DTAB[0 … |out| - 1] = out when DECODE_ALL of the buffer returns Ok(out), and with its error, its
offset and PKT_COUNT = 0 when it returns an error (R189). The buffer is the first BUF_LEN bytes of IBUF. -/
def Obligations.RunComputesDecodeAll : Prop :=
  ∀ (s : State) (f : Bool), s.busy = false → s.host = [] → s.sched = [] →
    ∃ s1 t, exec (.start f) s = .next s1 ∧ Host.Core.run core (s.bufLen.toNat / 4 + 1) s1 = .next t ∧
      t.busy = false ∧ t.done = true ∧
      match decodeAll s.params f (memRead s 0 s.bufLen.toNat) with
      | .ok out =>
        t.err = .ok ∧ t.errOffset = 0#32 ∧ t.pktCount.toNat = out.length ∧
          ∀ i d, out[i]? = some d → Cells.lookup t.dtab i = some d
      | .error (e, o) => t.err = e ∧ t.errOffset.toNat = o ∧ t.pktCount = 0#32

/-- A BUF_LEN write after a finished run can leave OFFSET above BUF_LEN, as program P5, schedule (b), of 95_test_vectors
shows; so the first clause of R177 holds of runs only (log 12). -/
def Obligations.BufLenWriteCanPassOffset : Prop :=
  ∃ (s t : State) (w : Word), Inv s ∧ s.done = true ∧ s.err = .ok ∧ s.offset.toNat ≤ s.bufLen.toNat ∧
    hostTurn s ∧ s.host.head? = some (.access (.csrWrite 0x08#8 w)) ∧ step s = .next t ∧
    Inv t ∧ t.bufLen = w ∧ t.bufLen.toNat < t.offset.toNat

/-- A zero-entry BYE, RR or SR with V = 2 and P = 0 and no byte beyond what its class requires is not rejected for its
missing entries alone. TD says WrongType where its decoder expects another Type, OK, or an error for another reason; and
that the reason is another shows in this: the packet that differs only in holding entries, as many as its Count says, is
not OK either. Whether the Type is the expected one is the same for every Count and every body, so a Count of 0 is no
ground (R184, R185). That a BYE requires nothing after its header, an RR at most the SSRC and an SR the SSRC and its minimum
body, and that a rejection which entries alone would lift is one for their absence, is the model's reading (log 5). -/
def Obligations.ZeroEntryPacketsAreValid : Prop :=
  (∀ (k : PacketClass) (pt : BitVec 8) (required entry : Nat),
    (k, pt, required, entry) ∈
      [(.bye, 203#8, 0, 4), (.rr, 201#8, 4, 24), (.sr, 200#8, max 4 (Config.tdMinBody .sr), 24)] →
    ∀ (l : BitVec 16) (body : List Byte), body.length = required →
      if tdTypeMatches k (hdrEncode ⟨2#2, 0#1, 0#5, pt, l⟩ ++ body) then
        tdVerdict k (hdrEncode ⟨2#2, 0#1, 0#5, pt, l⟩ ++ body) = .ok ∨
        ∀ (c : BitVec 5) (l' : BitVec 16) (entries : List Byte), entries.length = entry * c.toNat →
          tdVerdict k (hdrEncode ⟨2#2, 0#1, c, pt, l'⟩ ++ (body ++ entries)) ≠ .ok
      else tdVerdict k (hdrEncode ⟨2#2, 0#1, 0#5, pt, l⟩ ++ body) = .wrongType) ∧
  ∀ (k : PacketClass) (h h' : Header) (body body' : List Byte), k ∈ [.sr, .rr, .bye] → h.pt = h'.pt →
    tdTypeMatches k (hdrEncode h ++ body) = tdTypeMatches k (hdrEncode h' ++ body')

/-- On the host's turn an access on the host's bus does what HOST_MAP lets it do: a native read, which would give the host a
value, gives it to HOST_MAP instead and changes nothing else, a native write acts as the host's own would, the reply goes
to the host, and where HOST_MAP defines nothing the access is refused (R61, R63, R65). A native access in a step of its
own, and the list of answers, are the model's choices (log 7). -/
def Obligations.BusAccessFollowsHostMap : Prop :=
  ∀ (s : State) (b : BusAccess) (answers : List Word) (rest : List HostAction), hostTurn s →
    s.host = .bus b answers :: rest →
    match Config.hostMap b answers with
    | none => step s = .refused (.hostMapUndefined b)
    | some (.reply pieces) =>
      step s = .next { afterPick s with host := rest, responses := s.responses ++ pieces }
    | some (.native a) =>
      match accessValue a s with
      | some v =>
        hostAccess a s = .next (received v s) ∧
        step s = .next { afterPick s with host := .bus b (answers ++ [v]) :: rest }
      | none => step s = hostAccess a { afterPick s with host := .bus b (answers ++ [0#32]) :: rest }
end

