-- ==== Sys2Proof/Laws/Codec.lean ====
section
/-! SUPPORT. The bit facts of the header codec: the two packings of R90 are inverse, a word's bytes give it back, and
the declared length's range (R95). -/

namespace Sys2Proof

/-- Which field each bit of the header word belongs to (R90). -/
theorem Header.pack_bit (h : Header) (i : Nat) :
    h.pack.getLsbD i =
      if i < 16 then h.l.getLsbD i
      else if i < 24 then h.pt.getLsbD (i - 16)
      else if i < 29 then h.c.getLsbD (i - 24)
      else if i < 30 then h.p.getLsbD (i - 29)
      else h.v.getLsbD (i - 30) := by
  show BitVec.getLsbD (w := 2 + 1 + 5 + 8 + 16) (h.v ++ h.p ++ h.c ++ h.pt ++ h.l) i = _
  simp only [BitVec.getLsbD_append]
  split_ifs <;> first | rfl | omega

/-- Which byte each bit of a big-endian word belongs to (R8). -/
theorem be32_bit (b0 b1 b2 b3 : Byte) (i : Nat) :
    (be32 b0 b1 b2 b3).getLsbD i =
      if i < 8 then b3.getLsbD i
      else if i < 16 then b2.getLsbD (i - 8)
      else if i < 24 then b1.getLsbD (i - 16)
      else b0.getLsbD (i - 24) := by
  show BitVec.getLsbD (w := 8 + 8 + 8 + 8) (b0 ++ b1 ++ b2 ++ b3) i = _
  simp only [BitVec.getLsbD_append]
  split_ifs <;> first | rfl | omega

theorem Header.unpack_pack_eq (h : Header) : Header.unpack h.pack = h := by
  obtain ⟨v, p, c, pt, l⟩ := h
  simp only [Header.unpack, Header.mk.injEq]
  refine ⟨?_, ?_, ?_, ?_, ?_⟩ <;>
    · apply BitVec.eq_of_getLsbD_eq
      intro i hi
      simp only [BitVec.getLsbD_extractLsb', Header.pack_bit, hi, decide_true, Bool.true_and]
      split_ifs <;> first | omega | (congr 1; omega)

theorem Header.pack_unpack_eq (w : Word) : (Header.unpack w).pack = w := by
  apply BitVec.eq_of_getLsbD_eq
  intro i hi
  simp only [Header.pack_bit, Header.unpack, BitVec.getLsbD_extractLsb']
  split_ifs
  all_goals
    rw [decide_eq_true (by omega), Bool.true_and]
    congr 1
    omega

theorem be32_bytes_eq (w : Word) :
    be32 (w.extractLsb' 24 8) (w.extractLsb' 16 8) (w.extractLsb' 8 8) (w.extractLsb' 0 8) = w := by
  apply BitVec.eq_of_getLsbD_eq
  intro i hi
  simp only [be32_bit, BitVec.getLsbD_extractLsb']
  split_ifs
  all_goals
    rw [decide_eq_true (by omega), Bool.true_and]
    congr 1
    omega

/-- A declared length is a multiple of 4 between 4 and 262144 (R95). -/
theorem Header.declaredLength_range (h : Header) :
    4 ≤ h.declaredLength ∧ h.declaredLength ≤ 262144 ∧ h.declaredLength % 4 = 0 := by
  have := h.l.isLt
  unfold Header.declaredLength
  omega

end Sys2Proof
end

