-- ==== Sys2Proof/Laws/State.lean ====
section
/-! SUPPORT. Every field after every named update of State, each by rfl. -/

namespace Sys2Proof.Machine

variable (s : State)

@[simp] theorem writeByte_params (a : Nat) (v : Byte) : (writeByte a v s).params = s.params := rfl
@[simp] theorem writeByte_frameOnly (a : Nat) (v : Byte) : (writeByte a v s).frameOnly = s.frameOnly := rfl
@[simp] theorem writeByte_busy (a : Nat) (v : Byte) : (writeByte a v s).busy = s.busy := rfl
@[simp] theorem writeByte_done (a : Nat) (v : Byte) : (writeByte a v s).done = s.done := rfl
@[simp] theorem writeByte_err (a : Nat) (v : Byte) : (writeByte a v s).err = s.err := rfl
@[simp] theorem writeByte_bufLen (a : Nat) (v : Byte) : (writeByte a v s).bufLen = s.bufLen := rfl
@[simp] theorem writeByte_offset (a : Nat) (v : Byte) : (writeByte a v s).offset = s.offset := rfl
@[simp] theorem writeByte_pktCount (a : Nat) (v : Byte) : (writeByte a v s).pktCount = s.pktCount := rfl
@[simp] theorem writeByte_errOffset (a : Nat) (v : Byte) : (writeByte a v s).errOffset = s.errOffset := rfl
@[simp] theorem writeByte_encFields (a : Nat) (v : Byte) : (writeByte a v s).encFields = s.encFields := rfl
@[simp] theorem writeByte_encHdr (a : Nat) (v : Byte) : (writeByte a v s).encHdr = s.encHdr := rfl
@[simp] theorem writeByte_encOffset (a : Nat) (v : Byte) : (writeByte a v s).encOffset = s.encOffset := rfl
@[simp] theorem writeByte_encErr (a : Nat) (v : Byte) : (writeByte a v s).encErr = s.encErr := rfl
@[simp] theorem writeByte_encCount (a : Nat) (v : Byte) : (writeByte a v s).encCount = s.encCount := rfl
@[simp] theorem writeByte_ibuf (a : Nat) (v : Byte) : (writeByte a v s).ibuf = Cells.insert a v s.ibuf := rfl
@[simp] theorem writeByte_dtab (a : Nat) (v : Byte) : (writeByte a v s).dtab = s.dtab := rfl
@[simp] theorem writeByte_resets (a : Nat) (v : Byte) : (writeByte a v s).resets = s.resets := rfl
@[simp] theorem writeByte_host (a : Nat) (v : Byte) : (writeByte a v s).host = s.host := rfl
@[simp] theorem writeByte_sched (a : Nat) (v : Byte) : (writeByte a v s).sched = s.sched := rfl
@[simp] theorem writeByte_responses (a : Nat) (v : Byte) : (writeByte a v s).responses = s.responses := rfl

@[simp] theorem finish_params (c : ErrCode) (o : Word) : (finish c o s).params = s.params := rfl
@[simp] theorem finish_frameOnly (c : ErrCode) (o : Word) : (finish c o s).frameOnly = s.frameOnly := rfl
@[simp] theorem finish_busy (c : ErrCode) (o : Word) : (finish c o s).busy = false := rfl
@[simp] theorem finish_done (c : ErrCode) (o : Word) : (finish c o s).done = true := rfl
@[simp] theorem finish_err (c : ErrCode) (o : Word) : (finish c o s).err = c := rfl
@[simp] theorem finish_bufLen (c : ErrCode) (o : Word) : (finish c o s).bufLen = s.bufLen := rfl
@[simp] theorem finish_offset (c : ErrCode) (o : Word) : (finish c o s).offset = (if c = .ok then s.offset else o) := rfl
@[simp] theorem finish_pktCount (c : ErrCode) (o : Word) : (finish c o s).pktCount = (if c = .ok then s.pktCount else 0#32) := rfl
@[simp] theorem finish_errOffset (c : ErrCode) (o : Word) : (finish c o s).errOffset = (if c = .ok then 0#32 else o) := rfl
@[simp] theorem finish_encFields (c : ErrCode) (o : Word) : (finish c o s).encFields = s.encFields := rfl
@[simp] theorem finish_encHdr (c : ErrCode) (o : Word) : (finish c o s).encHdr = s.encHdr := rfl
@[simp] theorem finish_encOffset (c : ErrCode) (o : Word) : (finish c o s).encOffset = s.encOffset := rfl
@[simp] theorem finish_encErr (c : ErrCode) (o : Word) : (finish c o s).encErr = s.encErr := rfl
@[simp] theorem finish_encCount (c : ErrCode) (o : Word) : (finish c o s).encCount = s.encCount := rfl
@[simp] theorem finish_ibuf (c : ErrCode) (o : Word) : (finish c o s).ibuf = s.ibuf := rfl
@[simp] theorem finish_dtab (c : ErrCode) (o : Word) : (finish c o s).dtab = s.dtab := rfl
@[simp] theorem finish_resets (c : ErrCode) (o : Word) : (finish c o s).resets = s.resets := rfl
@[simp] theorem finish_host (c : ErrCode) (o : Word) : (finish c o s).host = s.host := rfl
@[simp] theorem finish_sched (c : ErrCode) (o : Word) : (finish c o s).sched = s.sched := rfl
@[simp] theorem finish_responses (c : ErrCode) (o : Word) : (finish c o s).responses = s.responses := rfl

@[simp] theorem clearRun_params (b : Bool) : (clearRun b s).params = s.params := rfl
@[simp] theorem clearRun_frameOnly (b : Bool) : (clearRun b s).frameOnly = b := rfl
@[simp] theorem clearRun_busy (b : Bool) : (clearRun b s).busy = s.busy := rfl
@[simp] theorem clearRun_done (b : Bool) : (clearRun b s).done = false := rfl
@[simp] theorem clearRun_err (b : Bool) : (clearRun b s).err = .ok := rfl
@[simp] theorem clearRun_bufLen (b : Bool) : (clearRun b s).bufLen = s.bufLen := rfl
@[simp] theorem clearRun_offset (b : Bool) : (clearRun b s).offset = 0#32 := rfl
@[simp] theorem clearRun_pktCount (b : Bool) : (clearRun b s).pktCount = 0#32 := rfl
@[simp] theorem clearRun_errOffset (b : Bool) : (clearRun b s).errOffset = 0#32 := rfl
@[simp] theorem clearRun_encFields (b : Bool) : (clearRun b s).encFields = s.encFields := rfl
@[simp] theorem clearRun_encHdr (b : Bool) : (clearRun b s).encHdr = s.encHdr := rfl
@[simp] theorem clearRun_encOffset (b : Bool) : (clearRun b s).encOffset = s.encOffset := rfl
@[simp] theorem clearRun_encErr (b : Bool) : (clearRun b s).encErr = s.encErr := rfl
@[simp] theorem clearRun_encCount (b : Bool) : (clearRun b s).encCount = s.encCount := rfl
@[simp] theorem clearRun_ibuf (b : Bool) : (clearRun b s).ibuf = s.ibuf := rfl
@[simp] theorem clearRun_dtab (b : Bool) : (clearRun b s).dtab = s.dtab := rfl
@[simp] theorem clearRun_resets (b : Bool) : (clearRun b s).resets = s.resets := rfl
@[simp] theorem clearRun_host (b : Bool) : (clearRun b s).host = s.host := rfl
@[simp] theorem clearRun_sched (b : Bool) : (clearRun b s).sched = s.sched := rfl
@[simp] theorem clearRun_responses (b : Bool) : (clearRun b s).responses = s.responses := rfl

@[simp] theorem setBusy_params : (setBusy s).params = s.params := rfl
@[simp] theorem setBusy_frameOnly : (setBusy s).frameOnly = s.frameOnly := rfl
@[simp] theorem setBusy_busy : (setBusy s).busy = true := rfl
@[simp] theorem setBusy_done : (setBusy s).done = s.done := rfl
@[simp] theorem setBusy_err : (setBusy s).err = s.err := rfl
@[simp] theorem setBusy_bufLen : (setBusy s).bufLen = s.bufLen := rfl
@[simp] theorem setBusy_offset : (setBusy s).offset = s.offset := rfl
@[simp] theorem setBusy_pktCount : (setBusy s).pktCount = s.pktCount := rfl
@[simp] theorem setBusy_errOffset : (setBusy s).errOffset = s.errOffset := rfl
@[simp] theorem setBusy_encFields : (setBusy s).encFields = s.encFields := rfl
@[simp] theorem setBusy_encHdr : (setBusy s).encHdr = s.encHdr := rfl
@[simp] theorem setBusy_encOffset : (setBusy s).encOffset = s.encOffset := rfl
@[simp] theorem setBusy_encErr : (setBusy s).encErr = s.encErr := rfl
@[simp] theorem setBusy_encCount : (setBusy s).encCount = s.encCount := rfl
@[simp] theorem setBusy_ibuf : (setBusy s).ibuf = s.ibuf := rfl
@[simp] theorem setBusy_dtab : (setBusy s).dtab = s.dtab := rfl
@[simp] theorem setBusy_resets : (setBusy s).resets = s.resets := rfl
@[simp] theorem setBusy_host : (setBusy s).host = s.host := rfl
@[simp] theorem setBusy_sched : (setBusy s).sched = s.sched := rfl
@[simp] theorem setBusy_responses : (setBusy s).responses = s.responses := rfl

@[simp] theorem setFrameOnly_params (b : Bool) : (setFrameOnly b s).params = s.params := rfl
@[simp] theorem setFrameOnly_frameOnly (b : Bool) : (setFrameOnly b s).frameOnly = b := rfl
@[simp] theorem setFrameOnly_busy (b : Bool) : (setFrameOnly b s).busy = s.busy := rfl
@[simp] theorem setFrameOnly_done (b : Bool) : (setFrameOnly b s).done = s.done := rfl
@[simp] theorem setFrameOnly_err (b : Bool) : (setFrameOnly b s).err = s.err := rfl
@[simp] theorem setFrameOnly_bufLen (b : Bool) : (setFrameOnly b s).bufLen = s.bufLen := rfl
@[simp] theorem setFrameOnly_offset (b : Bool) : (setFrameOnly b s).offset = s.offset := rfl
@[simp] theorem setFrameOnly_pktCount (b : Bool) : (setFrameOnly b s).pktCount = s.pktCount := rfl
@[simp] theorem setFrameOnly_errOffset (b : Bool) : (setFrameOnly b s).errOffset = s.errOffset := rfl
@[simp] theorem setFrameOnly_encFields (b : Bool) : (setFrameOnly b s).encFields = s.encFields := rfl
@[simp] theorem setFrameOnly_encHdr (b : Bool) : (setFrameOnly b s).encHdr = s.encHdr := rfl
@[simp] theorem setFrameOnly_encOffset (b : Bool) : (setFrameOnly b s).encOffset = s.encOffset := rfl
@[simp] theorem setFrameOnly_encErr (b : Bool) : (setFrameOnly b s).encErr = s.encErr := rfl
@[simp] theorem setFrameOnly_encCount (b : Bool) : (setFrameOnly b s).encCount = s.encCount := rfl
@[simp] theorem setFrameOnly_ibuf (b : Bool) : (setFrameOnly b s).ibuf = s.ibuf := rfl
@[simp] theorem setFrameOnly_dtab (b : Bool) : (setFrameOnly b s).dtab = s.dtab := rfl
@[simp] theorem setFrameOnly_resets (b : Bool) : (setFrameOnly b s).resets = s.resets := rfl
@[simp] theorem setFrameOnly_host (b : Bool) : (setFrameOnly b s).host = s.host := rfl
@[simp] theorem setFrameOnly_sched (b : Bool) : (setFrameOnly b s).sched = s.sched := rfl
@[simp] theorem setFrameOnly_responses (b : Bool) : (setFrameOnly b s).responses = s.responses := rfl

@[simp] theorem setBufLen_params (v : Word) : (setBufLen v s).params = s.params := rfl
@[simp] theorem setBufLen_frameOnly (v : Word) : (setBufLen v s).frameOnly = s.frameOnly := rfl
@[simp] theorem setBufLen_busy (v : Word) : (setBufLen v s).busy = s.busy := rfl
@[simp] theorem setBufLen_done (v : Word) : (setBufLen v s).done = s.done := rfl
@[simp] theorem setBufLen_err (v : Word) : (setBufLen v s).err = s.err := rfl
@[simp] theorem setBufLen_bufLen (v : Word) : (setBufLen v s).bufLen = v := rfl
@[simp] theorem setBufLen_offset (v : Word) : (setBufLen v s).offset = s.offset := rfl
@[simp] theorem setBufLen_pktCount (v : Word) : (setBufLen v s).pktCount = s.pktCount := rfl
@[simp] theorem setBufLen_errOffset (v : Word) : (setBufLen v s).errOffset = s.errOffset := rfl
@[simp] theorem setBufLen_encFields (v : Word) : (setBufLen v s).encFields = s.encFields := rfl
@[simp] theorem setBufLen_encHdr (v : Word) : (setBufLen v s).encHdr = s.encHdr := rfl
@[simp] theorem setBufLen_encOffset (v : Word) : (setBufLen v s).encOffset = s.encOffset := rfl
@[simp] theorem setBufLen_encErr (v : Word) : (setBufLen v s).encErr = s.encErr := rfl
@[simp] theorem setBufLen_encCount (v : Word) : (setBufLen v s).encCount = s.encCount := rfl
@[simp] theorem setBufLen_ibuf (v : Word) : (setBufLen v s).ibuf = s.ibuf := rfl
@[simp] theorem setBufLen_dtab (v : Word) : (setBufLen v s).dtab = s.dtab := rfl
@[simp] theorem setBufLen_resets (v : Word) : (setBufLen v s).resets = s.resets := rfl
@[simp] theorem setBufLen_host (v : Word) : (setBufLen v s).host = s.host := rfl
@[simp] theorem setBufLen_sched (v : Word) : (setBufLen v s).sched = s.sched := rfl
@[simp] theorem setBufLen_responses (v : Word) : (setBufLen v s).responses = s.responses := rfl

@[simp] theorem setEncFields_params (v : Word) : (setEncFields v s).params = s.params := rfl
@[simp] theorem setEncFields_frameOnly (v : Word) : (setEncFields v s).frameOnly = s.frameOnly := rfl
@[simp] theorem setEncFields_busy (v : Word) : (setEncFields v s).busy = s.busy := rfl
@[simp] theorem setEncFields_done (v : Word) : (setEncFields v s).done = s.done := rfl
@[simp] theorem setEncFields_err (v : Word) : (setEncFields v s).err = s.err := rfl
@[simp] theorem setEncFields_bufLen (v : Word) : (setEncFields v s).bufLen = s.bufLen := rfl
@[simp] theorem setEncFields_offset (v : Word) : (setEncFields v s).offset = s.offset := rfl
@[simp] theorem setEncFields_pktCount (v : Word) : (setEncFields v s).pktCount = s.pktCount := rfl
@[simp] theorem setEncFields_errOffset (v : Word) : (setEncFields v s).errOffset = s.errOffset := rfl
@[simp] theorem setEncFields_encFields (v : Word) : (setEncFields v s).encFields = v.extractLsb' 16 16 ++ 0#16 := rfl
@[simp] theorem setEncFields_encHdr (v : Word) : (setEncFields v s).encHdr = s.encHdr := rfl
@[simp] theorem setEncFields_encOffset (v : Word) : (setEncFields v s).encOffset = s.encOffset := rfl
@[simp] theorem setEncFields_encErr (v : Word) : (setEncFields v s).encErr = s.encErr := rfl
@[simp] theorem setEncFields_encCount (v : Word) : (setEncFields v s).encCount = s.encCount := rfl
@[simp] theorem setEncFields_ibuf (v : Word) : (setEncFields v s).ibuf = s.ibuf := rfl
@[simp] theorem setEncFields_dtab (v : Word) : (setEncFields v s).dtab = s.dtab := rfl
@[simp] theorem setEncFields_resets (v : Word) : (setEncFields v s).resets = s.resets := rfl
@[simp] theorem setEncFields_host (v : Word) : (setEncFields v s).host = s.host := rfl
@[simp] theorem setEncFields_sched (v : Word) : (setEncFields v s).sched = s.sched := rfl
@[simp] theorem setEncFields_responses (v : Word) : (setEncFields v s).responses = s.responses := rfl

@[simp] theorem recordPacket_params (d : Descriptor) (n : Nat) : (recordPacket d n s).params = s.params := rfl
@[simp] theorem recordPacket_frameOnly (d : Descriptor) (n : Nat) : (recordPacket d n s).frameOnly = s.frameOnly := rfl
@[simp] theorem recordPacket_busy (d : Descriptor) (n : Nat) : (recordPacket d n s).busy = s.busy := rfl
@[simp] theorem recordPacket_done (d : Descriptor) (n : Nat) : (recordPacket d n s).done = s.done := rfl
@[simp] theorem recordPacket_err (d : Descriptor) (n : Nat) : (recordPacket d n s).err = s.err := rfl
@[simp] theorem recordPacket_bufLen (d : Descriptor) (n : Nat) : (recordPacket d n s).bufLen = s.bufLen := rfl
@[simp] theorem recordPacket_offset (d : Descriptor) (n : Nat) : (recordPacket d n s).offset = s.offset + BitVec.ofNat 32 n := rfl
@[simp] theorem recordPacket_pktCount (d : Descriptor) (n : Nat) : (recordPacket d n s).pktCount = s.pktCount + 1#32 := rfl
@[simp] theorem recordPacket_errOffset (d : Descriptor) (n : Nat) : (recordPacket d n s).errOffset = s.errOffset := rfl
@[simp] theorem recordPacket_encFields (d : Descriptor) (n : Nat) : (recordPacket d n s).encFields = s.encFields := rfl
@[simp] theorem recordPacket_encHdr (d : Descriptor) (n : Nat) : (recordPacket d n s).encHdr = s.encHdr := rfl
@[simp] theorem recordPacket_encOffset (d : Descriptor) (n : Nat) : (recordPacket d n s).encOffset = s.encOffset := rfl
@[simp] theorem recordPacket_encErr (d : Descriptor) (n : Nat) : (recordPacket d n s).encErr = s.encErr := rfl
@[simp] theorem recordPacket_encCount (d : Descriptor) (n : Nat) : (recordPacket d n s).encCount = s.encCount := rfl
@[simp] theorem recordPacket_ibuf (d : Descriptor) (n : Nat) : (recordPacket d n s).ibuf = s.ibuf := rfl
@[simp] theorem recordPacket_dtab (d : Descriptor) (n : Nat) : (recordPacket d n s).dtab = Cells.insert s.pktCount.toNat d s.dtab := rfl
@[simp] theorem recordPacket_resets (d : Descriptor) (n : Nat) : (recordPacket d n s).resets = s.resets := rfl
@[simp] theorem recordPacket_host (d : Descriptor) (n : Nat) : (recordPacket d n s).host = s.host := rfl
@[simp] theorem recordPacket_sched (d : Descriptor) (n : Nat) : (recordPacket d n s).sched = s.sched := rfl
@[simp] theorem recordPacket_responses (d : Descriptor) (n : Nat) : (recordPacket d n s).responses = s.responses := rfl

@[simp] theorem encReset_params (c : ErrCode) : (encReset c s).params = s.params := rfl
@[simp] theorem encReset_frameOnly (c : ErrCode) : (encReset c s).frameOnly = s.frameOnly := rfl
@[simp] theorem encReset_busy (c : ErrCode) : (encReset c s).busy = s.busy := rfl
@[simp] theorem encReset_done (c : ErrCode) : (encReset c s).done = s.done := rfl
@[simp] theorem encReset_err (c : ErrCode) : (encReset c s).err = s.err := rfl
@[simp] theorem encReset_bufLen (c : ErrCode) : (encReset c s).bufLen = s.bufLen := rfl
@[simp] theorem encReset_offset (c : ErrCode) : (encReset c s).offset = s.offset := rfl
@[simp] theorem encReset_pktCount (c : ErrCode) : (encReset c s).pktCount = s.pktCount := rfl
@[simp] theorem encReset_errOffset (c : ErrCode) : (encReset c s).errOffset = s.errOffset := rfl
@[simp] theorem encReset_encFields (c : ErrCode) : (encReset c s).encFields = s.encFields := rfl
@[simp] theorem encReset_encHdr (c : ErrCode) : (encReset c s).encHdr = 0#32 := rfl
@[simp] theorem encReset_encOffset (c : ErrCode) : (encReset c s).encOffset = 0#32 := rfl
@[simp] theorem encReset_encErr (c : ErrCode) : (encReset c s).encErr = c := rfl
@[simp] theorem encReset_encCount (c : ErrCode) : (encReset c s).encCount = 0#32 := rfl
@[simp] theorem encReset_ibuf (c : ErrCode) : (encReset c s).ibuf = s.ibuf := rfl
@[simp] theorem encReset_dtab (c : ErrCode) : (encReset c s).dtab = s.dtab := rfl
@[simp] theorem encReset_resets (c : ErrCode) : (encReset c s).resets = s.resets := rfl
@[simp] theorem encReset_host (c : ErrCode) : (encReset c s).host = s.host := rfl
@[simp] theorem encReset_sched (c : ErrCode) : (encReset c s).sched = s.sched := rfl
@[simp] theorem encReset_responses (c : ErrCode) : (encReset c s).responses = s.responses := rfl

@[simp] theorem recordAppend_params (w v : Word) : (recordAppend w v s).params = s.params := rfl
@[simp] theorem recordAppend_frameOnly (w v : Word) : (recordAppend w v s).frameOnly = s.frameOnly := rfl
@[simp] theorem recordAppend_busy (w v : Word) : (recordAppend w v s).busy = s.busy := rfl
@[simp] theorem recordAppend_done (w v : Word) : (recordAppend w v s).done = s.done := rfl
@[simp] theorem recordAppend_err (w v : Word) : (recordAppend w v s).err = s.err := rfl
@[simp] theorem recordAppend_bufLen (w v : Word) : (recordAppend w v s).bufLen = s.bufLen := rfl
@[simp] theorem recordAppend_offset (w v : Word) : (recordAppend w v s).offset = s.offset := rfl
@[simp] theorem recordAppend_pktCount (w v : Word) : (recordAppend w v s).pktCount = s.pktCount := rfl
@[simp] theorem recordAppend_errOffset (w v : Word) : (recordAppend w v s).errOffset = s.errOffset := rfl
@[simp] theorem recordAppend_encFields (w v : Word) : (recordAppend w v s).encFields = s.encFields := rfl
@[simp] theorem recordAppend_encHdr (w v : Word) : (recordAppend w v s).encHdr = w := rfl
@[simp] theorem recordAppend_encOffset (w v : Word) : (recordAppend w v s).encOffset = s.encOffset + v := rfl
@[simp] theorem recordAppend_encErr (w v : Word) : (recordAppend w v s).encErr = s.encErr := rfl
@[simp] theorem recordAppend_encCount (w v : Word) : (recordAppend w v s).encCount = s.encCount + 1#32 := rfl
@[simp] theorem recordAppend_ibuf (w v : Word) : (recordAppend w v s).ibuf = s.ibuf := rfl
@[simp] theorem recordAppend_dtab (w v : Word) : (recordAppend w v s).dtab = s.dtab := rfl
@[simp] theorem recordAppend_resets (w v : Word) : (recordAppend w v s).resets = s.resets := rfl
@[simp] theorem recordAppend_host (w v : Word) : (recordAppend w v s).host = s.host := rfl
@[simp] theorem recordAppend_sched (w v : Word) : (recordAppend w v s).sched = s.sched := rfl
@[simp] theorem recordAppend_responses (w v : Word) : (recordAppend w v s).responses = s.responses := rfl

@[simp] theorem respond_params (v : Word) : (respond v s).params = s.params := rfl
@[simp] theorem respond_frameOnly (v : Word) : (respond v s).frameOnly = s.frameOnly := rfl
@[simp] theorem respond_busy (v : Word) : (respond v s).busy = s.busy := rfl
@[simp] theorem respond_done (v : Word) : (respond v s).done = s.done := rfl
@[simp] theorem respond_err (v : Word) : (respond v s).err = s.err := rfl
@[simp] theorem respond_bufLen (v : Word) : (respond v s).bufLen = s.bufLen := rfl
@[simp] theorem respond_offset (v : Word) : (respond v s).offset = s.offset := rfl
@[simp] theorem respond_pktCount (v : Word) : (respond v s).pktCount = s.pktCount := rfl
@[simp] theorem respond_errOffset (v : Word) : (respond v s).errOffset = s.errOffset := rfl
@[simp] theorem respond_encFields (v : Word) : (respond v s).encFields = s.encFields := rfl
@[simp] theorem respond_encHdr (v : Word) : (respond v s).encHdr = s.encHdr := rfl
@[simp] theorem respond_encOffset (v : Word) : (respond v s).encOffset = s.encOffset := rfl
@[simp] theorem respond_encErr (v : Word) : (respond v s).encErr = s.encErr := rfl
@[simp] theorem respond_encCount (v : Word) : (respond v s).encCount = s.encCount := rfl
@[simp] theorem respond_ibuf (v : Word) : (respond v s).ibuf = s.ibuf := rfl
@[simp] theorem respond_dtab (v : Word) : (respond v s).dtab = s.dtab := rfl
@[simp] theorem respond_resets (v : Word) : (respond v s).resets = s.resets := rfl
@[simp] theorem respond_host (v : Word) : (respond v s).host = s.host := rfl
@[simp] theorem respond_sched (v : Word) : (respond v s).sched = s.sched := rfl
@[simp] theorem respond_responses (v : Word) : (respond v s).responses = s.responses ++ [v] := rfl

@[simp] theorem respondAll_params (vs : List Word) : (respondAll vs s).params = s.params := rfl
@[simp] theorem respondAll_frameOnly (vs : List Word) : (respondAll vs s).frameOnly = s.frameOnly := rfl
@[simp] theorem respondAll_busy (vs : List Word) : (respondAll vs s).busy = s.busy := rfl
@[simp] theorem respondAll_done (vs : List Word) : (respondAll vs s).done = s.done := rfl
@[simp] theorem respondAll_err (vs : List Word) : (respondAll vs s).err = s.err := rfl
@[simp] theorem respondAll_bufLen (vs : List Word) : (respondAll vs s).bufLen = s.bufLen := rfl
@[simp] theorem respondAll_offset (vs : List Word) : (respondAll vs s).offset = s.offset := rfl
@[simp] theorem respondAll_pktCount (vs : List Word) : (respondAll vs s).pktCount = s.pktCount := rfl
@[simp] theorem respondAll_errOffset (vs : List Word) : (respondAll vs s).errOffset = s.errOffset := rfl
@[simp] theorem respondAll_encFields (vs : List Word) : (respondAll vs s).encFields = s.encFields := rfl
@[simp] theorem respondAll_encHdr (vs : List Word) : (respondAll vs s).encHdr = s.encHdr := rfl
@[simp] theorem respondAll_encOffset (vs : List Word) : (respondAll vs s).encOffset = s.encOffset := rfl
@[simp] theorem respondAll_encErr (vs : List Word) : (respondAll vs s).encErr = s.encErr := rfl
@[simp] theorem respondAll_encCount (vs : List Word) : (respondAll vs s).encCount = s.encCount := rfl
@[simp] theorem respondAll_ibuf (vs : List Word) : (respondAll vs s).ibuf = s.ibuf := rfl
@[simp] theorem respondAll_dtab (vs : List Word) : (respondAll vs s).dtab = s.dtab := rfl
@[simp] theorem respondAll_resets (vs : List Word) : (respondAll vs s).resets = s.resets := rfl
@[simp] theorem respondAll_host (vs : List Word) : (respondAll vs s).host = s.host := rfl
@[simp] theorem respondAll_sched (vs : List Word) : (respondAll vs s).sched = s.sched := rfl
@[simp] theorem respondAll_responses (vs : List Word) : (respondAll vs s).responses = s.responses ++ vs := rfl

@[simp] theorem setHost_params (l : List HostAction) : (setHost l s).params = s.params := rfl
@[simp] theorem setHost_frameOnly (l : List HostAction) : (setHost l s).frameOnly = s.frameOnly := rfl
@[simp] theorem setHost_busy (l : List HostAction) : (setHost l s).busy = s.busy := rfl
@[simp] theorem setHost_done (l : List HostAction) : (setHost l s).done = s.done := rfl
@[simp] theorem setHost_err (l : List HostAction) : (setHost l s).err = s.err := rfl
@[simp] theorem setHost_bufLen (l : List HostAction) : (setHost l s).bufLen = s.bufLen := rfl
@[simp] theorem setHost_offset (l : List HostAction) : (setHost l s).offset = s.offset := rfl
@[simp] theorem setHost_pktCount (l : List HostAction) : (setHost l s).pktCount = s.pktCount := rfl
@[simp] theorem setHost_errOffset (l : List HostAction) : (setHost l s).errOffset = s.errOffset := rfl
@[simp] theorem setHost_encFields (l : List HostAction) : (setHost l s).encFields = s.encFields := rfl
@[simp] theorem setHost_encHdr (l : List HostAction) : (setHost l s).encHdr = s.encHdr := rfl
@[simp] theorem setHost_encOffset (l : List HostAction) : (setHost l s).encOffset = s.encOffset := rfl
@[simp] theorem setHost_encErr (l : List HostAction) : (setHost l s).encErr = s.encErr := rfl
@[simp] theorem setHost_encCount (l : List HostAction) : (setHost l s).encCount = s.encCount := rfl
@[simp] theorem setHost_ibuf (l : List HostAction) : (setHost l s).ibuf = s.ibuf := rfl
@[simp] theorem setHost_dtab (l : List HostAction) : (setHost l s).dtab = s.dtab := rfl
@[simp] theorem setHost_resets (l : List HostAction) : (setHost l s).resets = s.resets := rfl
@[simp] theorem setHost_host (l : List HostAction) : (setHost l s).host = l := rfl
@[simp] theorem setHost_sched (l : List HostAction) : (setHost l s).sched = s.sched := rfl
@[simp] theorem setHost_responses (l : List HostAction) : (setHost l s).responses = s.responses := rfl

@[simp] theorem setSched_params (l : List Agent) : (setSched l s).params = s.params := rfl
@[simp] theorem setSched_frameOnly (l : List Agent) : (setSched l s).frameOnly = s.frameOnly := rfl
@[simp] theorem setSched_busy (l : List Agent) : (setSched l s).busy = s.busy := rfl
@[simp] theorem setSched_done (l : List Agent) : (setSched l s).done = s.done := rfl
@[simp] theorem setSched_err (l : List Agent) : (setSched l s).err = s.err := rfl
@[simp] theorem setSched_bufLen (l : List Agent) : (setSched l s).bufLen = s.bufLen := rfl
@[simp] theorem setSched_offset (l : List Agent) : (setSched l s).offset = s.offset := rfl
@[simp] theorem setSched_pktCount (l : List Agent) : (setSched l s).pktCount = s.pktCount := rfl
@[simp] theorem setSched_errOffset (l : List Agent) : (setSched l s).errOffset = s.errOffset := rfl
@[simp] theorem setSched_encFields (l : List Agent) : (setSched l s).encFields = s.encFields := rfl
@[simp] theorem setSched_encHdr (l : List Agent) : (setSched l s).encHdr = s.encHdr := rfl
@[simp] theorem setSched_encOffset (l : List Agent) : (setSched l s).encOffset = s.encOffset := rfl
@[simp] theorem setSched_encErr (l : List Agent) : (setSched l s).encErr = s.encErr := rfl
@[simp] theorem setSched_encCount (l : List Agent) : (setSched l s).encCount = s.encCount := rfl
@[simp] theorem setSched_ibuf (l : List Agent) : (setSched l s).ibuf = s.ibuf := rfl
@[simp] theorem setSched_dtab (l : List Agent) : (setSched l s).dtab = s.dtab := rfl
@[simp] theorem setSched_resets (l : List Agent) : (setSched l s).resets = s.resets := rfl
@[simp] theorem setSched_host (l : List Agent) : (setSched l s).host = s.host := rfl
@[simp] theorem setSched_sched (l : List Agent) : (setSched l s).sched = l := rfl
@[simp] theorem setSched_responses (l : List Agent) : (setSched l s).responses = s.responses := rfl

@[simp] theorem resetBlock_params : (resetBlock s).params = s.params := rfl
@[simp] theorem resetBlock_frameOnly : (resetBlock s).frameOnly = false := rfl
@[simp] theorem resetBlock_busy : (resetBlock s).busy = false := rfl
@[simp] theorem resetBlock_done : (resetBlock s).done = false := rfl
@[simp] theorem resetBlock_err : (resetBlock s).err = .ok := rfl
@[simp] theorem resetBlock_bufLen : (resetBlock s).bufLen = 0#32 := rfl
@[simp] theorem resetBlock_offset : (resetBlock s).offset = 0#32 := rfl
@[simp] theorem resetBlock_pktCount : (resetBlock s).pktCount = 0#32 := rfl
@[simp] theorem resetBlock_errOffset : (resetBlock s).errOffset = 0#32 := rfl
@[simp] theorem resetBlock_encFields : (resetBlock s).encFields = 0x80000000#32 := rfl
@[simp] theorem resetBlock_encHdr : (resetBlock s).encHdr = 0#32 := rfl
@[simp] theorem resetBlock_encOffset : (resetBlock s).encOffset = 0#32 := rfl
@[simp] theorem resetBlock_encErr : (resetBlock s).encErr = .ok := rfl
@[simp] theorem resetBlock_encCount : (resetBlock s).encCount = 0#32 := rfl
@[simp] theorem resetBlock_ibuf : (resetBlock s).ibuf = [] := rfl
@[simp] theorem resetBlock_dtab : (resetBlock s).dtab = [] := rfl
@[simp] theorem resetBlock_resets : (resetBlock s).resets = s.resets + 1 := rfl
@[simp] theorem resetBlock_host : (resetBlock s).host = s.host := rfl
@[simp] theorem resetBlock_sched : (resetBlock s).sched = s.sched := rfl
@[simp] theorem resetBlock_responses : (resetBlock s).responses = s.responses := rfl

end Sys2Proof.Machine
end

