-- ==== Sys2Proof/Laws/Memory.lean ====
section
/-! SUPPORT. The laws of the canonical lists behind IBUF and DTAB: a read after a write, and that every memory operation
keeps the canonical form. -/

namespace Sys2Proof.Machine

theorem Cells.lookup_insert_same {α : Type} (a : Nat) (v : α) (l : List (Nat × α)) :
    Cells.lookup (Cells.insert a v l) a = some v := by
  induction l with
  | nil => simp [Cells.insert, Cells.lookup]
  | cons c rest ih =>
    obtain ⟨k, x⟩ := c
    simp only [Cells.insert]
    split
    · simp [Cells.lookup]
    · split
      · simp [Cells.lookup]
      · next h => simp [Cells.lookup, h, ih]

theorem Cells.lookup_insert_other {α : Type} {a b : Nat} (v : α) (l : List (Nat × α)) (hne : b ≠ a) :
    Cells.lookup (Cells.insert a v l) b = Cells.lookup l b := by
  induction l with
  | nil => simp [Cells.insert, Cells.lookup, hne]
  | cons c rest ih =>
    obtain ⟨k, x⟩ := c
    simp only [Cells.insert]
    split
    · simp [Cells.lookup, hne]
    · split
      · next h => subst h; simp [Cells.lookup, hne]
      · simp [Cells.lookup, ih]

theorem Cells.risingFrom_mono {α : Type} {hi lo lo' : Nat} {l : List (Nat × α)} (hle : lo' ≤ lo)
    (h : Cells.risingFrom hi lo l = true) : Cells.risingFrom hi lo' l = true := by
  cases l with
  | nil => rfl
  | cons c rest =>
    obtain ⟨k, x⟩ := c
    simp only [Cells.risingFrom, Bool.and_eq_true, decide_eq_true_eq] at h ⊢
    exact ⟨⟨by omega, h.1.2⟩, h.2⟩

theorem Cells.risingFrom_insert {α : Type} {hi lo a : Nat} (v : α) {l : List (Nat × α)} (hlo : lo ≤ a) (hhi : a < hi)
    (h : Cells.risingFrom hi lo l = true) : Cells.risingFrom hi lo (Cells.insert a v l) = true := by
  induction l generalizing lo with
  | nil => simp [Cells.insert, Cells.risingFrom, hlo, hhi]
  | cons c rest ih =>
    obtain ⟨k, x⟩ := c
    simp only [Cells.risingFrom, Bool.and_eq_true, decide_eq_true_eq] at h
    obtain ⟨⟨h1, h2⟩, h3⟩ := h
    simp only [Cells.insert]
    split
    · simp only [Cells.risingFrom, Bool.and_eq_true, decide_eq_true_eq]
      exact ⟨⟨hlo, hhi⟩, ⟨by omega, h2⟩, h3⟩
    · split
      · next he =>
        subst he
        simp only [Cells.risingFrom, Bool.and_eq_true, decide_eq_true_eq]
        exact ⟨⟨hlo, hhi⟩, h3⟩
      · simp only [Cells.risingFrom, Bool.and_eq_true, decide_eq_true_eq]
        exact ⟨⟨h1, h2⟩, ih (by omega) h3⟩

/-- A byte write keeps IBUF's canonical form where the host's write has an effect (R60). -/
theorem writeByte_wf {s : State} {a : Nat} (v : Byte) (ha : a < s.params.maxIbuf.toNat)
    (h : Memory.wf s.params.maxIbuf s.ibuf = true) :
    Memory.wf (writeByte a v s).params.maxIbuf (writeByte a v s).ibuf = true :=
  Cells.risingFrom_insert v (Nat.zero_le a) ha h

/-- An engine write keeps DTAB's canonical form below D_DEPTH (R175). -/
theorem recordPacket_wf {s : State} (d : Descriptor) (n : Nat) (hi : s.pktCount.toNat < dtabDepth s.params)
    (h : Dtab.wf s.params s.dtab = true) :
    Dtab.wf (recordPacket d n s).params (recordPacket d n s).dtab = true :=
  Cells.risingFrom_insert d (Nat.zero_le _) hi h

/-- The memories of the state after reset are in canonical form. -/
theorem reset_wf : Memory.wf State.reset.params.maxIbuf State.reset.ibuf = true ∧
    Dtab.wf State.reset.params State.reset.dtab = true :=
  ⟨rfl, rfl⟩

theorem readByte_writeByte_same (s : State) (a : Nat) (v : Byte) : readByte (writeByte a v s) a = v := by
  simp [readByte, Cells.lookup_insert_same]

theorem readByte_writeByte_other (s : State) {a b : Nat} (v : Byte) (hne : b ≠ a) :
    readByte (writeByte a v s) b = readByte s b := by
  simp [readByte, Cells.lookup_insert_other v s.ibuf hne]

theorem dtabWord_recordPacket_same (s : State) (d : Descriptor) (n k : Nat) :
    dtabWord (recordPacket d n s) s.pktCount.toNat k = descriptorWord d k := by
  simp [dtabWord, Cells.lookup_insert_same]

theorem dtabWord_recordPacket_other (s : State) (d : Descriptor) (n k : Nat) {i : Nat} (hne : i ≠ s.pktCount.toNat) :
    dtabWord (recordPacket d n s) i k = dtabWord s i k := by
  simp [dtabWord, Cells.lookup_insert_other d s.dtab hne]

/-- What a byte reads as depends on IBUF and the reset count only. -/
theorem readByte_congr {s t : State} (hm : t.ibuf = s.ibuf) (hr : t.resets = s.resets) (a : Nat) :
    readByte t a = readByte s a := by
  simp [readByte, hm, hr]

/-- What a DTAB word reads as depends on DTAB and the reset count only. -/
theorem dtabWord_congr {s t : State} (hm : t.dtab = s.dtab) (hr : t.resets = s.resets) (i k : Nat) :
    dtabWord t i k = dtabWord s i k := by
  simp [dtabWord, hm, hr]

theorem memRead_congr {s t : State} (hm : t.ibuf = s.ibuf) (hr : t.resets = s.resets) (a n : Nat) :
    memRead t a n = memRead s a n := by
  induction n generalizing a with
  | zero => rfl
  | succ n ih => simp [memRead, readByte_congr hm hr, ih]

@[simp] theorem memRead_length (s : State) (a n : Nat) : (memRead s a n).length = n := by
  induction n generalizing a with
  | zero => rfl
  | succ n ih => simp [memRead, ih]

theorem memRead_getElem (s : State) (a n i : Nat) (hi : i < n) :
    (memRead s a n)[i]? = some (readByte s (a + i)) := by
  induction n generalizing a i with
  | zero => omega
  | succ n ih =>
    cases i with
    | zero => simp [memRead]
    | succ i => simp [memRead, ih (a + 1) i (by omega), Nat.add_assoc, Nat.add_comm 1 i]

end Sys2Proof.Machine
end

