-- ==== Sys2Proof/Laws/PerInstr.lean ====
section
/-! SUPPORT. Per instruction: the encoder's word agrees with the mask and match of its row of spec/opcode_table.json, one
lemma per constructor. -/

namespace Sys2Proof.Laws.TableRow

/-- Mask and match of an instruction's row of spec/opcode_table.json; the rows of PSFB_FIR and PSFB_RRR depend on
FB_FORMAT_MAP (R149, R150). -/
def maskMatch (m : FbFormatMap) : Instr → Word × Word
  | .sr _ _ _ _ => (0x00FF0000#32, 0x00C80000#32)
  | .rr _ _ _ _ => (0x00FF0000#32, 0x00C90000#32)
  | .sdes _ _ _ _ => (0x00FF0000#32, 0x00CA0000#32)
  | .bye _ _ _ _ => (0x00FF0000#32, 0x00CB0000#32)
  | .app _ _ _ _ => (0x00FF0000#32, 0x00CC0000#32)
  | .tlfbNack _ _ _ => (0x1FFF0000#32, 0x01CD0000#32)
  | .psfbPli _ _ _ => (0x1FFF0000#32, 0x01CE0000#32)
  | .psfbFir _ _ _ => (0x1FFF0000#32, match m with | .doc => 0x02CE0000#32 | .rfc => 0x04CE0000#32)
  | .psfbRrr _ _ _ => (0x1FFF0000#32, match m with | .doc => 0x04CE0000#32 | .rfc => 0x05CD0000#32)
  | .xr _ _ _ _ => (0x00FF0000#32, 0x00CF0000#32)
  | .tlfbUnregistered _ _ _ _ => (0x00FF0000#32, 0x00CD0000#32)
  | .psfbUnregistered _ _ _ _ => (0x00FF0000#32, 0x00CE0000#32)
  | .unknownPt _ _ _ _ _ => (0x00000000#32, 0x00000000#32)
  | .start _ => (0x00000001#32, 0x00000001#32)
  | .encClear => (0x00000001#32, 0x00000001#32)
  | .encAppend _ => (0x00000000#32, 0x00000000#32)

/-- The word of an encoding: the header word, or the written value. -/
def word : Encoding → Word
  | .header w => w
  | .csrWrite _ w => w

/-- The encoded word has the bits the instruction's table row fixes. -/
def Statement (i : Instr) : Prop :=
  ∀ m, word (encode m i) &&& (maskMatch m i).1 = (maskMatch m i).2

theorem mask_type (h : Header) : h.pack &&& 0x00FF0000#32 = h.pt.setWidth 32 <<< 16 := by
  apply BitVec.eq_of_getLsbD_eq
  intro i hi
  rw [BitVec.getLsbD_and, Header.pack_bit, BitVec.getLsbD_shiftLeft, BitVec.getLsbD_setWidth]
  interval_cases i <;> simp

theorem mask_type_format (h : Header) :
    h.pack &&& 0x1FFF0000#32 = h.pt.setWidth 32 <<< 16 ||| h.c.setWidth 32 <<< 24 := by
  apply BitVec.eq_of_getLsbD_eq
  intro i hi
  rw [BitVec.getLsbD_and, Header.pack_bit, BitVec.getLsbD_or, BitVec.getLsbD_shiftLeft, BitVec.getLsbD_shiftLeft,
    BitVec.getLsbD_setWidth, BitVec.getLsbD_setWidth]
  interval_cases i <;> simp

theorem of_type {v p c l} {pt : BitVec 8} {w : Word} (he : pt.setWidth 32 <<< 16 = w) :
    Header.pack ⟨v, p, c, pt, l⟩ &&& 0x00FF0000#32 = w :=
  (mask_type _).trans he

theorem of_type_format {v p l} {c : BitVec 5} {pt : BitVec 8} {w : Word}
    (he : pt.setWidth 32 <<< 16 ||| c.setWidth 32 <<< 24 = w) :
    Header.pack ⟨v, p, c, pt, l⟩ &&& 0x1FFF0000#32 = w :=
  (mask_type_format _).trans he

theorem sr (v p c l) : Statement (.sr v p c l) := fun _ => of_type rfl
theorem rr (v p c l) : Statement (.rr v p c l) := fun _ => of_type rfl
theorem sdes (v p c l) : Statement (.sdes v p c l) := fun _ => of_type rfl
theorem bye (v p c l) : Statement (.bye v p c l) := fun _ => of_type rfl
theorem app (v p c l) : Statement (.app v p c l) := fun _ => of_type rfl
theorem tlfbNack (v p l) : Statement (.tlfbNack v p l) := fun _ => of_type_format rfl
theorem psfbPli (v p l) : Statement (.psfbPli v p l) := fun _ => of_type_format rfl
theorem psfbFir (v p l) : Statement (.psfbFir v p l)
  | .doc => of_type_format rfl
  | .rfc => of_type_format rfl
theorem psfbRrr (v p l) : Statement (.psfbRrr v p l)
  | .doc => of_type_format rfl
  | .rfc => of_type_format rfl
theorem xr (v p c l) : Statement (.xr v p c l) := fun _ => of_type rfl
theorem tlfbUnregistered (v p c l) : Statement (.tlfbUnregistered v p c l) := fun _ => of_type rfl
theorem psfbUnregistered (v p c l) : Statement (.psfbUnregistered v p c l) := fun _ => of_type rfl
theorem unknownPt (v p c pt l) : Statement (.unknownPt v p c pt l) := fun _ => BitVec.and_zero
theorem start (frameOnly) : Statement (.start frameOnly) := by
  intro m
  show startValue frameOnly &&& 1#32 = 1#32
  cases frameOnly <;> decide
theorem encClear : Statement .encClear := fun _ => show (1#32 &&& 1#32) = 1#32 by decide
theorem encAppend (size) : Statement (.encAppend size) := fun _ => BitVec.and_zero

end Sys2Proof.Laws.TableRow
end

