-- ==== Sys2Proof/Laws/Steps.lean ====
section
/-! SUPPORT. What each shared operation can do, said once: the framing step (R172), the commands (R170, R233), the
host's accesses, and one step of the machine. -/

namespace Sys2Proof.Machine

/-- What START can do (R170). -/
theorem startRun_cases (f : Bool) (s : State) :
    (s.bufLen = 0#32 ∧ startRun f s = finish .invalidHeader 0#32 (clearRun f s)) ∨
      (s.bufLen ≠ 0#32 ∧ startRun f s = setBusy (clearRun f s)) := by
  by_cases h : s.bufLen = 0#32 <;> simp [startRun, h]

/-- What an append can do (R233): it fails with one of two codes, or it records a packet that fits. -/
theorem appendPacket_cases (size : Word) (s : State) :
    (∃ e, (e = .badLength ∨ e = .lengthOverflow) ∧ appendPacket size s = encReset e s) ∨
      (∃ l, lenEncode size = .ok l ∧ s.encOffset.toNat + size.toNat ≤ s.params.maxObuf.toNat ∧
        appendPacket size s = recordAppend (encHeader s.encFields l).pack size s) := by
  unfold appendPacket
  cases h : lenEncode size with
  | error e =>
    left
    refine ⟨e, ?_, rfl⟩
    unfold lenEncode at h
    split_ifs at h <;> cases h <;> simp
  | ok l =>
    dsimp only
    split
    · exact .inl ⟨_, .inr rfl, rfl⟩
    · exact .inr ⟨l, rfl, by omega, rfl⟩

/-- A size with a Length field is a positive multiple of 4 (R231). -/
theorem lenEncode_ok {size : Word} {l : BitVec 16} (h : lenEncode size = .ok l) :
    size.toNat = (l.toNat + 1) * 4 := by
  unfold lenEncode at h
  split_ifs at h with h1 h2
  cases h
  simp only [not_or, not_not] at h1
  have h0 : size.toNat ≠ 0 := fun hz => h1.1 (BitVec.eq_of_toNat_eq (by simpa using hz))
  simp only [BitVec.toNat_ofNat]
  omega

/-- What the rest of FRAME_STEP can do for a registered class (R172, R304). -/
theorem frameAs_cases (k : PacketClass) (h : Header) (s : State) :
    (remaining s < h.declaredLength ∧ frameAs k h s = finish .packetTooShort s.offset s) ∨
      (h.declaredLength ≤ remaining s ∧ verdict k h.declaredLength s = .ok ∧ frameAs k h s = accept k h s) ∨
      (h.declaredLength ≤ remaining s ∧ verdict k h.declaredLength s ≠ .ok ∧
        frameAs k h s = finish (verdict k h.declaredLength s) s.offset s) := by
  unfold frameAs
  split
  · next hlt => exact .inl ⟨hlt, rfl⟩
  · next hge =>
    right
    split
    · next hv => exact .inl ⟨by omega, hv, rfl⟩
    · next hv => exact .inr ⟨by omega, hv, rfl⟩

/-- What the rest of FRAME_STEP can do for a rejected header (R172, R174). -/
theorem frameReject_cases (e : ErrCode) (h : Header) (s : State) :
    (remaining s < h.declaredLength ∧ frameReject e h s = finish .packetTooShort s.offset s) ∨
      (h.declaredLength ≤ remaining s ∧ frameReject e h s = finish e s.offset s) := by
  unfold frameReject
  split
  · next hlt => exact .inl ⟨hlt, rfl⟩
  · next hge => exact .inr ⟨by omega, rfl⟩

/-- What R185 re-validates in a window that starts with this header. -/
theorem tdTypeMatches_header (k : PacketClass) (h : Header) (body : List Byte) :
    tdTypeMatches k (hdrEncode h ++ body) = tdExpects k h.pt h.c := by
  have hlen : ¬ body.length + 1 + 1 + 1 + 1 < 4 := by omega
  simp [tdTypeMatches, hdrEncode, wordBytes, hdrDecode, be32_bytes_eq, Header.unpack_pack_eq, hlen]

/-- When a section's bytes are wrong (R183). -/
theorem tdSectionBad_iff (k : PacketClass) (win : List Byte) :
    tdSectionBad k win = true ↔ tdStride k ≠ 0 ∧
      (tdSection k win % tdStride k ≠ 0 ∨ (tdMandatory k = true ∧ tdSection k win < tdStride k)) := by
  simp [tdSectionBad]

/-- When R182 fails a window. -/
theorem tdFirBad_iff (k : PacketClass) (win : List Byte) :
    tdFirBad k win = true ↔
      k = .psfbFir ∧ 12 ≤ win.length ∧ (win.length - 12 = 0 ∨ (win.length - 12) % 8 ≠ 0) := by
  unfold tdFirBad
  rw [Bool.and_eq_true, Bool.and_eq_true, decide_eq_true_eq, decide_eq_true_eq, tdSectionBad_iff, and_assoc]
  refine and_congr_right fun hk => and_congr_right fun _ => ?_
  subst hk
  simp only [tdStride, tdSection, tdMandatory, ne_eq, OfNat.ofNat_ne_zero, not_false_eq_true, true_and]
  omega

/-- R183 finds PacketTooShort, BadLength or nothing. -/
theorem tdLengthError_cases (k : PacketClass) (win : List Byte) :
    (win.length < 4 + tdMinimum k ∧ tdLengthError k win = some .packetTooShort) ∨
      (4 + tdMinimum k ≤ win.length ∧ tdSectionBad k win = true ∧ tdLengthError k win = some .badLength) ∨
      (4 + tdMinimum k ≤ win.length ∧ tdSectionBad k win = false ∧ tdLengthError k win = none) := by
  unfold tdLengthError
  split_ifs with h1 h2
  · exact .inl ⟨h1, rfl⟩
  · exact .inr (.inl ⟨by omega, h2, rfl⟩)
  · exact .inr (.inr ⟨by omega, by simpa using h2, rfl⟩)

/-- Everything TD can answer, and when (R180 to R186). -/
theorem tdVerdict_cases (k : PacketClass) (win : List Byte) :
    (tdFirBad k win = true ∧ tdVerdict k win = .badLength) ∨
      (tdFirBad k win = false ∧ tdTypeMatches k win = false ∧ tdVerdict k win = .wrongType) ∨
      (tdFirBad k win = false ∧ tdLengthError k win = some (tdVerdict k win)) ∨
      (tdFirBad k win = false ∧ tdTypeMatches k win = true ∧ tdLengthError k win = none ∧
        ((tdNameShort k win = true ∧ tdVerdict k win = tdErrorCode (Config.tdAppError win)) ∨
          (tdNameShort k win = false ∧ tdVerdict k win = tdBodyVerdict k win))) := by
  unfold tdVerdict
  by_cases hf : tdFirBad k win = true
  · simp [hf]
  · simp only [Bool.not_eq_true] at hf
    cases hl : tdLengthError k win with
    | none =>
      cases ht : tdTypeMatches k win with
      | false => simp [hf]
      | true => cases hn : tdNameShort k win <;> simp [hf]
    | some e => cases ht : tdTypeMatches k win <;> cases hc : Config.tdTypeFirst k win <;> simp [hf]

/-- An error verdict by name is never OK (R180). -/
theorem tdErrorCode_codes (e : TdError) :
    tdErrorCode e = .packetTooShort ∨ tdErrorCode e = .wrongType ∨ tdErrorCode e = .badLength ∨
      tdErrorCode e = .contentError := by
  cases e <;> simp [tdErrorCode]

/-- A verdict on a window of the expected type is never WrongType (R185). -/
theorem tdMatchedCode_codes (e : TdMatched) :
    tdMatchedCode e = .ok ∨ tdMatchedCode e = .packetTooShort ∨ tdMatchedCode e = .badLength ∨
      tdMatchedCode e = .contentError := by
  cases e <;> simp [tdMatchedCode]

/-- Everything the verdict on a window of right length and type can be (R180, R184, R185). -/
theorem tdBodyVerdict_cases (k : PacketClass) (win : List Byte) :
    (tdPlainEntries k win = none ∧ tdBodyVerdict k win = tdMatchedCode (Config.tdMatched k win)) ∨
      (tdPlainEntries k win = some 0 ∧ tdBodyVerdict k win = tdFixedVerdict k win) ∨
      (∃ n, tdPlainEntries k win = some (n + 1) ∧
        (tdBodyVerdict k win = tdFixedVerdict k win ∨
          (tdBodyVerdict k win ≠ .ok ∧ tdBodyVerdict k win = tdMatchedCode (Config.tdMatched k win)))) := by
  unfold tdBodyVerdict
  rcases tdPlainEntries k win with _ | _ | n
  · simp
  · simp
  · cases Config.tdMatched k win <;> simp [tdMatchedCode]

/-- A verdict on a window of the expected type is never WrongType (R185). -/
theorem tdBodyVerdict_codes (k : PacketClass) (win : List Byte) :
    tdBodyVerdict k win = .ok ∨ tdBodyVerdict k win = .packetTooShort ∨ tdBodyVerdict k win = .badLength ∨
      tdBodyVerdict k win = .contentError := by
  rcases tdBodyVerdict_cases k win with ⟨-, h⟩ | ⟨-, h⟩ | ⟨_, -, h | ⟨-, h⟩⟩ <;> rw [h] <;>
    exact tdMatchedCode_codes _

/-- TD answers with one of the verdicts of R180. -/
theorem tdVerdict_codes (k : PacketClass) (win : List Byte) :
    tdVerdict k win = .ok ∨ tdVerdict k win = .packetTooShort ∨ tdVerdict k win = .wrongType ∨
      tdVerdict k win = .badLength ∨ tdVerdict k win = .contentError := by
  rcases tdVerdict_cases k win with ⟨-, h⟩ | ⟨-, -, h⟩ | ⟨-, h⟩ | ⟨-, -, -, ⟨-, h⟩ | ⟨-, h⟩⟩
  · simp [h]
  · simp [h]
  · rcases tdLengthError_cases k win with ⟨-, e⟩ | ⟨-, -, e⟩ | ⟨-, -, e⟩ <;> rw [h] at e <;> simp_all
  · rw [h]; exact .inr (tdErrorCode_codes _)
  · rw [h]; rcases tdBodyVerdict_codes k win with c | c | c | c <;> simp [c]

/-- Entries do not make a plain packet OK that is rejected without them (R184). -/
theorem tdVerdict_plain {k : PacketClass} {win : List Byte} {n : Nat} (hp : tdPlainEntries k win = some n)
    (h : tdVerdict k win = .ok) : tdFixedVerdict k win = .ok := by
  rcases tdVerdict_cases k win with ⟨-, e⟩ | ⟨-, -, e⟩ | ⟨-, e⟩ | ⟨-, -, -, ⟨-, e⟩ | ⟨-, e⟩⟩ <;> rw [h] at e
  · simp at e
  · simp at e
  · rcases tdLengthError_cases k win with ⟨-, c⟩ | ⟨-, -, c⟩ | ⟨-, -, c⟩ <;> simp [c] at e
  · rcases tdErrorCode_codes (Config.tdAppError win) with c | c | c | c <;> simp [c] at e
  · rcases tdBodyVerdict_cases k win with ⟨c, -⟩ | ⟨-, c⟩ | ⟨_, -, c | ⟨c, -⟩⟩
    · simp [hp] at c
    · rw [← c, ← e]
    · rw [← c, ← e]
    · exact absurd e.symm c

/-- When an SR, RR or BYE is plain (R184). -/
theorem tdPlainEntries_header {k : PacketClass} {f : Nat} {h : Header} {body : List Byte}
    (hf : tdFixedLength k = some f) (hv : h.v = 2#2) (hp : h.p = 0#1)
    (hl : body.length = f + tdEntrySize k * h.c.toNat) :
    tdPlainEntries k (hdrEncode h ++ body) = some h.c.toNat := by
  have hlen : ¬ body.length + 1 + 1 + 1 + 1 < 4 := by omega
  have hd : hdrDecode (hdrEncode h ++ body) (hdrEncode h ++ body).length = .ok h := by
    simp [hdrEncode, wordBytes, hdrDecode, be32_bytes_eq, Header.unpack_pack_eq, hlen]
  have hn : (hdrEncode h ++ body).length = 4 + f + tdEntrySize k * h.c.toNat := by
    simp [hdrEncode, wordBytes, hl]; omega
  simp only [tdPlainEntries, hf, hd]
  rw [if_pos ⟨hv, hp, hn⟩]

/-- The required body of a packet is what follows its header (R184). -/
theorem tdFixedVerdict_header {k : PacketClass} {f : Nat} {h : Header} {body more : List Byte}
    (hf : tdFixedLength k = some f) (hl : body.length = f) :
    tdFixedVerdict k (hdrEncode h ++ (body ++ more)) = tdMatchedCode (Config.tdFixed k body) := by
  subst hl
  simp [tdFixedVerdict, hf, hdrEncode, wordBytes]

/-- The codes a verdict can have: those of R180. -/
theorem verdict_codes (k : PacketClass) (dl : Nat) (s : State) :
    verdict k dl s = .ok ∨ verdict k dl s = .packetTooShort ∨ verdict k dl s = .wrongType ∨
      verdict k dl s = .badLength ∨ verdict k dl s = .contentError := by
  unfold verdict
  split
  · simp
  · exact tdVerdict_codes k _

/-- The tags are 1 to 10 (R140). -/
theorem classTag_range (k : PacketClass) : 1 ≤ (classTag k).toNat ∧ (classTag k).toNat ≤ 10 := by
  cases k <;> decide

/-- An error a decode step can finish with besides InvalidHeader (R300). -/
def isFramingError (p : Params) (e : ErrCode) : Prop :=
  e ≠ .ok ∧ e ≠ .lengthOverflow ∧ (e = .unknownType → p.unknownPtCode = .unknownType)

/-- What one FRAME_STEP after a successful peek can leave (R172): a failure at OFFSET, or an accepted packet. -/
inductive FrameResult (s : State) : State → Prop where
  | fails (e : ErrCode) (he : isFramingError s.params e) : FrameResult s (finish e s.offset s)
  | accepts (k : PacketClass) (h : Header) (hfit : h.declaredLength ≤ remaining s) : FrameResult s (accept k h s)

theorem frameAs_result (k : PacketClass) (h : Header) (s : State) : FrameResult s (frameAs k h s) := by
  rcases frameAs_cases k h s with ⟨-, e⟩ | ⟨hf, -, e⟩ | ⟨-, hv, e⟩ <;> rw [e]
  · exact .fails _ ⟨by simp, by simp, by simp⟩
  · exact .accepts k h hf
  · refine .fails _ ⟨hv, ?_, ?_⟩ <;>
      rcases verdict_codes k h.declaredLength s with c | c | c | c | c <;> simp [c]

theorem frameReject_result {e : ErrCode} (h : Header) {s : State} (he : isFramingError s.params e) :
    FrameResult s (frameReject e h s) := by
  rcases frameReject_cases e h s with ⟨-, e'⟩ | ⟨-, e'⟩ <;> rw [e']
  · exact .fails _ ⟨by simp, by simp, by simp⟩
  · exact .fails e he

/-- What a host command can leave (R170, R232, R233). -/
inductive CommandResult (s : State) : State → Prop where
  | noEffect : CommandResult s s
  | startsEmpty (f : Bool) (hb : s.busy = false) (hl : s.bufLen = 0#32) :
      CommandResult s (finish .invalidHeader 0#32 (clearRun f s))
  | starts (f : Bool) (hb : s.busy = false) (hl : s.bufLen ≠ 0#32) : CommandResult s (setBusy (clearRun f s))
  | clears : CommandResult s (encReset .ok s)
  | appendFails (e : ErrCode) (hs : s.encErr = .ok) (he : e = .badLength ∨ e = .lengthOverflow) :
      CommandResult s (encReset e s)
  | appends (size : Word) (l : BitVec 16) (hs : s.encErr = .ok) (hl : lenEncode size = .ok l)
      (hfit : s.encOffset.toNat + size.toNat ≤ s.params.maxObuf.toNat) :
      CommandResult s (recordAppend (encHeader s.encFields l).pack size s)

/-- What `exec` can answer: never a fault or a refusal; a header instruction frames, a command acts. -/
theorem exec_result (i : Instr) (s : State) :
    ∃ t, exec i s = .next t ∧
      ((∃ h, i.form s.params.fbFormatMap = .inl h ∧ FrameResult s t) ∨
        (∃ o w, i.form s.params.fbFormatMap = .inr (o, w) ∧ CommandResult s t)) := by
  cases i with
  | sr v p c l => exact ⟨_, rfl, .inl ⟨_, rfl, frameAs_result _ _ s⟩⟩
  | rr v p c l => exact ⟨_, rfl, .inl ⟨_, rfl, frameAs_result _ _ s⟩⟩
  | sdes v p c l => exact ⟨_, rfl, .inl ⟨_, rfl, frameAs_result _ _ s⟩⟩
  | bye v p c l => exact ⟨_, rfl, .inl ⟨_, rfl, frameAs_result _ _ s⟩⟩
  | app v p c l => exact ⟨_, rfl, .inl ⟨_, rfl, frameAs_result _ _ s⟩⟩
  | tlfbNack v p l => exact ⟨_, rfl, .inl ⟨_, rfl, frameAs_result _ _ s⟩⟩
  | psfbPli v p l => exact ⟨_, rfl, .inl ⟨_, rfl, frameAs_result _ _ s⟩⟩
  | psfbFir v p l => exact ⟨_, rfl, .inl ⟨_, rfl, frameAs_result _ _ s⟩⟩
  | psfbRrr v p l => exact ⟨_, rfl, .inl ⟨_, rfl, frameAs_result _ _ s⟩⟩
  | xr v p c l => exact ⟨_, rfl, .inl ⟨_, rfl, frameAs_result _ _ s⟩⟩
  | tlfbUnregistered v p c l =>
    exact ⟨_, rfl, .inl ⟨_, rfl, frameReject_result _ ⟨by simp, by simp, by simp⟩⟩⟩
  | psfbUnregistered v p c l =>
    exact ⟨_, rfl, .inl ⟨_, rfl, frameReject_result _ ⟨by simp, by simp, by simp⟩⟩⟩
  | unknownPt v p c pt l =>
    refine ⟨_, rfl, .inl ⟨_, rfl, frameReject_result _ ?_⟩⟩
    cases hu : s.params.unknownPtCode <;> simp [isFramingError, unknownPtErr, hu]
  | start f =>
    refine ⟨_, rfl, .inr ⟨_, _, rfl, ?_⟩⟩
    cases hb : s.busy with
    | true => exact .noEffect
    | false =>
      rcases startRun_cases f s with ⟨hl, e⟩ | ⟨hl, e⟩ <;> simp only [Bool.false_eq_true, ↓reduceIte, e]
      · exact .startsEmpty f hb hl
      · exact .starts f hb hl
  | encClear => exact ⟨_, rfl, .inr ⟨_, _, rfl, .clears⟩⟩
  | encAppend size =>
    refine ⟨_, rfl, .inr ⟨_, _, rfl, ?_⟩⟩
    by_cases hs : s.encErr = .ok
    · rcases appendPacket_cases size s with ⟨e, he, e'⟩ | ⟨l, hl, hf, e'⟩ <;> simp only [hs, ↓reduceIte, e']
      · exact .appendFails e hs he
      · exact .appends size l hs hl hf
    · simp only [hs, ↓reduceIte]
      exact .noEffect

/-- A CSR write decodes to commands only (R100). -/
theorem decodeCsrWrite_form {off : BitVec 8} {w : Word} {i : Instr} (h : decodeCsrWrite off w = .ok i)
    (m : FbFormatMap) : ∃ o v, i.form m = .inr (o, v) := by
  unfold decodeCsrWrite at h
  split_ifs at h <;> cases h <;> exact ⟨_, _, rfl⟩

/-- The dispatch table produces header instructions only (R97). -/
theorem ofHeader_isLeft (m m' : FbFormatMap) (h : Header) : ((Instr.ofHeader m h).form m').isLeft = true := by
  unfold Instr.ofHeader
  repeat' split
  all_goals first
    | rfl
    | (unfold tlfbRow; repeat' split
       all_goals rfl)
    | (unfold psfbRow; repeat' split
       all_goals rfl)

/-- The bytes of IBUF decode to header instructions only (R172). -/
theorem fetch_form {s : State} {i : Instr} (h : fetch s = .ok i) (m : FbFormatMap) : ∃ hd, i.form m = .inl hd := by
  unfold fetch decodeBytes at h
  split at h
  · cases h
    exact Sum.isLeft_iff.mp (ofHeader_isLeft _ m _)
  · cases h

/-- The header peek fails exactly when fewer than four bytes remain (R171). -/
theorem fetch_error {s : State} {e : DecodeReject} (h : fetch s = .error e) : remaining s < 4 := by
  by_contra hge
  have hmin : min (remaining s) 4 = 4 := by omega
  simp [fetch, decodeBytes, hdrDecode, hmin, memRead, hge] at h

/-- What a plain CSR write can store (R25, R27, R32). -/
theorem csrStore_cases (off : BitVec 8) (w : Word) (s : State) :
    csrStore off w s = s ∨ (s.busy = false ∧ csrStore off w s = setFrameOnly (w.getLsbD 1) s) ∨
      (s.busy = false ∧ w.toNat ≤ s.params.maxIbuf.toNat ∧ csrStore off w s = setBufLen w s) ∨
      csrStore off w s = setEncFields w s := by
  unfold csrStore
  split_ifs with h1 h2 h3 h4 h5
  · exact .inl rfl
  · exact .inr (.inl ⟨by simpa using h2, rfl⟩)
  · exact .inl rfl
  · simp only [not_or, Bool.not_eq_true] at h4
    exact .inr (.inr (.inl ⟨h4.1, by omega, rfl⟩))
  · exact .inr (.inr (.inr rfl))
  · exact .inl rfl

/-- What a native access can leave (R24, R39, R60). -/
inductive AccessResult (s : State) : State → Prop where
  | ignored : AccessResult s s
  | reads (v : Word) : AccessResult s (respond v s)
  | command {t : State} (h : CommandResult s t) : AccessResult s t
  | setsFrameOnly (b : Bool) (hb : s.busy = false) : AccessResult s (setFrameOnly b s)
  | setsBufLen (w : Word) (hb : s.busy = false) (hw : w.toNat ≤ s.params.maxIbuf.toNat) :
      AccessResult s (setBufLen w s)
  | setsEncFields (w : Word) : AccessResult s (setEncFields w s)
  | writes (a : Nat) (v : Byte) (hb : s.busy = false) (ha : a < s.params.maxIbuf.toNat) :
      AccessResult s (writeByte a v s)

/-- What a native access does always completes (R70). -/
theorem accessEffect_result (a : Access) (s : State) : ∃ t, accessEffect a s = .next t ∧ AccessResult s t := by
  cases a with
  | csrRead off => exact ⟨_, rfl, .ignored⟩
  | csrWrite off w =>
    cases hd : decodeCsrWrite off w with
    | ok i =>
      obtain ⟨t, ht, ⟨h, hf, -⟩ | ⟨o, v, -, hc⟩⟩ := exec_result i s
      · obtain ⟨o, v, hf'⟩ := decodeCsrWrite_form hd s.params.fbFormatMap
        simp [hf] at hf'
      · exact ⟨t, by simp [accessEffect, hd, ht], .command hc⟩
    | error e =>
      refine ⟨csrStore off w s, by simp [accessEffect, hd], ?_⟩
      rcases csrStore_cases off w s with h | ⟨hb, h⟩ | ⟨hb, hw, h⟩ | h <;> rw [h]
      · exact .ignored
      · exact .setsFrameOnly _ hb
      · exact .setsBufLen _ hb hw
      · exact .setsEncFields _
  | ibufRead a => exact ⟨_, rfl, .ignored⟩
  | ibufWrite a v =>
    refine ⟨_, rfl, ?_⟩
    unfold ibufStore
    split
    · next h => exact .writes a v h.1 h.2
    · exact .ignored
  | dtabRead off => exact ⟨_, rfl, .ignored⟩
  | dtabWrite off w => exact ⟨_, rfl, .ignored⟩

/-- A native access always completes (R70). -/
theorem hostAccess_result (a : Access) (s : State) : ∃ t, hostAccess a s = .next t ∧ AccessResult s t := by
  unfold hostAccess
  split
  · exact ⟨_, rfl, .reads _⟩
  · exact accessEffect_result a s

@[simp] theorem hostAccess_csrRead (off : BitVec 8) (s : State) :
    hostAccess (.csrRead off) s = .next (respond (csrRead off s) s) := rfl
@[simp] theorem hostAccess_csrWrite (off : BitVec 8) (w : Word) (s : State) :
    hostAccess (.csrWrite off w) s =
      match decodeCsrWrite off w with
      | .ok i => exec i s
      | .error _ => .next (csrStore off w s) := rfl
@[simp] theorem hostAccess_ibufRead (a : Nat) (s : State) :
    hostAccess (.ibufRead a) s = .next (respond ((ibufRead a s).setWidth 32) s) := rfl
@[simp] theorem hostAccess_ibufWrite (a : Nat) (v : Byte) (s : State) :
    hostAccess (.ibufWrite a v) s = .next (ibufStore a v s) := rfl
@[simp] theorem hostAccess_dtabRead (off : Nat) (s : State) :
    hostAccess (.dtabRead off) s = .next (respond (dtabRead off s) s) := rfl
@[simp] theorem hostAccess_dtabWrite (off : Nat) (w : Word) (s : State) :
    hostAccess (.dtabWrite off w) s = .next s := rfl

/-- What a host step can leave (R350); the native accesses of the host and of its bus act alike. -/
inductive HostResult (s : State) : State → Prop where
  | nothing : HostResult s s
  | access (left : List HostAction) {t : State} (h : AccessResult (setHost left s) t) : HostResult s t
  | waits (rest : List HostAction) (hh : s.host = .wait :: rest) (hb : s.busy = true) :
      HostResult s (respond (statusWord s) s)
  | waited (rest : List HostAction) (hh : s.host = .wait :: rest) (hb : s.busy = false) :
      HostResult s (respond (statusWord s) (setHost rest s))
  | busReplies (rest : List HostAction) (b : BusAccess) (answers pieces : List Word)
      (hh : s.host = .bus b answers :: rest) : HostResult s (respondAll pieces (setHost rest s))
  | resets (rest : List HostAction) (hh : s.host = .reset :: rest) : HostResult s (resetBlock (setHost rest s))

theorem hostStep_result {s t : State} (h : hostStep s = .next t) : HostResult s t := by
  unfold hostStep at h
  split at h
  · cases h; exact .nothing
  · next a rest hh =>
    obtain ⟨t', ht', hr⟩ := hostAccess_result a (setHost rest s)
    rw [ht'] at h
    cases h
    exact .access _ hr
  · next rest hh =>
    cases h
    cases hb : s.busy with
    | true => exact .waits rest hh hb
    | false => exact .waited rest hh hb
  · next b answers rest hh =>
    unfold busAccess at h
    split at h
    · cases h
    · cases h; exact .busReplies rest b answers _ hh
    · next a _ =>
      obtain ⟨t', ht', hr⟩ :=
        accessEffect_result a (setHost (.bus b (answers ++ [(accessValue a s).getD 0#32]) :: rest) s)
      rw [ht'] at h
      cases h
      exact .access _ hr
  · next rest hh => cases h; exact .resets rest hh

/-- What an engine step can leave (R172). -/
inductive EngineResult (s : State) : State → Prop where
  | disabled (hb : s.busy = false) : EngineResult s s
  | peekFails (hb : s.busy = true) (hr : remaining s < 4) : EngineResult s (finish .invalidHeader s.offset s)
  | frames {t : State} (hb : s.busy = true) (h : FrameResult s t) : EngineResult s t

theorem engineStep_result (s : State) : ∃ t, engineStep s = .next t ∧ EngineResult s t := by
  unfold engineStep
  cases hb : s.busy with
  | false => exact ⟨s, by simp, .disabled hb⟩
  | true =>
    cases hf : fetch s with
    | error e => exact ⟨_, by simp, .peekFails hb (fetch_error hf)⟩
    | ok i =>
      obtain ⟨t, ht, ⟨h, -, hr⟩ | ⟨o, v, hf', -⟩⟩ := exec_result i s
      · exact ⟨t, by simpa using ht, .frames hb hr⟩
      · obtain ⟨hd, hf''⟩ := fetch_form hf s.params.fbFormatMap
        simp [hf'] at hf''

/-- On the engine's turn the step is the engine's (R350). -/
theorem step_engineTurn {s : State} (h : engineTurn s) : step s = engineStep (afterPick s) := by
  have hp : pickedAgent s = .engine := by
    rcases h with h | ⟨h, hb⟩
    · unfold pickedAgent
      cases hs : s.sched <;> simp_all
    · simp [pickedAgent, h, defaultAgent, hb]
  unfold step
  rw [hp]
  rfl

/-- On the host's turn the step is the host's (R350). -/
theorem step_hostTurn {s : State} (h : hostTurn s) : step s = hostStep (afterPick s) := by
  have hp : pickedAgent s = .host := by
    rcases h with h | ⟨h, hb⟩
    · unfold pickedAgent
      cases hs : s.sched <;> simp_all
    · simp [pickedAgent, h, defaultAgent, hb]
  unfold step
  rw [hp]
  rfl

/-- It is the engine's turn or the host's, and not both. -/
theorem turn_cases (s : State) : (engineTurn s ∧ ¬ hostTurn s) ∨ (hostTurn s ∧ ¬ engineTurn s) := by
  unfold engineTurn hostTurn
  cases hs : s.sched with
  | nil => cases hb : s.busy <;> simp
  | cons a rest => cases a <;> simp

/-- What one step can leave (R350): a host step or an engine step from the state with the pick used up. -/
theorem step_result {s t : State} (h : step s = .next t) :
    (hostTurn s ∧ HostResult (afterPick s) t) ∨ (engineTurn s ∧ EngineResult (afterPick s) t) := by
  rcases turn_cases s with ⟨ht, -⟩ | ⟨ht, -⟩
  · right
    obtain ⟨t', ht', hr⟩ := engineStep_result (afterPick s)
    rw [step_engineTurn ht, ht'] at h
    cases h
    exact ⟨ht, hr⟩
  · left
    rw [step_hostTurn ht] at h
    exact ⟨ht, hostStep_result h⟩

/-- What acceptance leaves, field by field (R176). -/
theorem accept_fields (k : PacketClass) (h : Header) (s : State) :
    (accept k h s).dtab = Cells.insert s.pktCount.toNat (descriptorOf k h s) s.dtab ∧
    (accept k h s).pktCount = s.pktCount + 1#32 ∧
    (accept k h s).offset = s.offset + BitVec.ofNat 32 h.declaredLength ∧
    (accept k h s).bufLen = s.bufLen ∧ (accept k h s).frameOnly = s.frameOnly ∧
    (accept k h s).ibuf = s.ibuf ∧ (accept k h s).params = s.params := by
  simp only [accept]
  split <;> simp

/-- How acceptance leaves the run (R176): finished OK at the buffer's end, as it was otherwise. -/
theorem accept_control (k : PacketClass) (h : Header) (s : State) :
    (s.offset.toNat + h.declaredLength = s.bufLen.toNat ∧ (accept k h s).busy = false ∧ (accept k h s).done = true ∧
      (accept k h s).err = .ok ∧ (accept k h s).errOffset = 0#32) ∨
    (s.offset.toNat + h.declaredLength ≠ s.bufLen.toNat ∧ (accept k h s).busy = s.busy ∧
      (accept k h s).done = s.done ∧ (accept k h s).err = s.err ∧ (accept k h s).errOffset = s.errOffset) := by
  simp only [accept]
  split
  · next he => left; simp [he]
  · next he => right; simp [he]

/-- Acceptance leaves the encode unit and the world outside alone (R230). -/
theorem accept_frame (k : PacketClass) (h : Header) (s : State) :
    (accept k h s).encFields = s.encFields ∧ (accept k h s).encHdr = s.encHdr ∧
    (accept k h s).encOffset = s.encOffset ∧ (accept k h s).encErr = s.encErr ∧
    (accept k h s).encCount = s.encCount ∧ (accept k h s).resets = s.resets ∧ (accept k h s).host = s.host ∧
    (accept k h s).sched = s.sched ∧ (accept k h s).responses = s.responses := by
  simp only [accept]
  split <;> simp

end Sys2Proof.Machine
end

