-- ==== Sys2Proof/Tests/Slice0.lean ====
section
/-! SUPPORT. The model's own tests: expected values come from spec/95_test_vectors.md or are worked out by hand from the
encodings of spec/. The `witness_` theorems meet the hypotheses of the obligations. -/

namespace Sys2Proof.Tests

open Sys2Proof.Machine

/-! ### Helpers -/

/-- The next state of an outcome. -/
def nextOf (o : Host.Outcome State Fault Refusal) : Option State :=
  match o with
  | .next t => some t
  | .fault _ => none
  | .refused _ => none

/-- Bytes as IBUF cells from an address on. -/
def cells (a : Nat) : List Nat → List Host.Cell
  | [] => []
  | b :: rest => (a, BitVec.ofNat 8 b) :: cells (a + 1) rest

/-- A block after reset with the spec's default parameters, MAX_IBUF = 256 and MAX_OBUF = 64. -/
def idle : State :=
  { State.reset with params := { maxIbuf := 256#32, maxObuf := 64#32, unknownPtCode := .wrongType, fbFormatMap := .doc } }

/-- A FRAME_ONLY run in progress over a buffer of these bytes, at its first packet. -/
def run (bytes : List Nat) : State :=
  { idle with frameOnly := true, busy := true, bufLen := BitVec.ofNat 32 bytes.length, ibuf := cells 0 bytes }

/-- STATUS, ERR_OFFSET, OFFSET and PKT_COUNT after the next step. -/
def result (s : State) : Option (Word × Word × Word × Word) :=
  (nextOf (step s)).map (fun t => (statusWord t, t.errOffset, t.offset, t.pktCount))

/-- The four words of DTAB entry `i` after the next step. -/
def entry (s : State) (i : Nat) : Option (List Word) :=
  (nextOf (step s)).map (fun t => [dtabWord t i 0, dtabWord t i 1, dtabWord t i 2, dtabWord t i 3])

/-- The host's next action is this access. -/
def hostDoes (a : Access) (s : State) : State :=
  { s with host := [.access a] }

/-- ENC_HDR, ENC_OFFSET, ENC_COUNT and ENC_STATUS after the next step. -/
def encoded (s : State) : Option (Word × Word × Word × Word) :=
  (nextOf (step s)).map (fun t => (t.encHdr, t.encOffset, t.encCount, encStatusWord t))

/-- A block whose encode unit holds this much output. -/
def encoding (fields offset count : Word) : State :=
  { idle with encFields := fields, encOffset := offset, encCount := count }

/-! ### Well-formedness: an ill-formed term for each check -/

theorem test_illFormed_tlfb :
    (Instr.tlfbUnregistered 2#2 0#1 1#5 2#16).wellFormed .doc = false ∧
    (Instr.tlfbUnregistered 2#2 0#1 5#5 2#16).wellFormed .rfc = false ∧
    (Instr.tlfbUnregistered 2#2 0#1 5#5 2#16).wellFormed .doc = true := by decide

theorem test_illFormed_psfb :
    (Instr.psfbUnregistered 2#2 0#1 1#5 2#16).wellFormed .doc = false ∧
    (Instr.psfbUnregistered 2#2 0#1 2#5 2#16).wellFormed .doc = false ∧
    (Instr.psfbUnregistered 2#2 0#1 4#5 2#16).wellFormed .doc = false ∧
    (Instr.psfbUnregistered 2#2 0#1 4#5 2#16).wellFormed .rfc = false ∧
    (Instr.psfbUnregistered 2#2 0#1 2#5 2#16).wellFormed .rfc = true := by decide

theorem test_illFormed_unknownPt :
    (Instr.unknownPt 2#2 0#1 0#5 200#8 0#16).wellFormed .doc = false ∧
    (Instr.unknownPt 2#2 0#1 0#5 207#8 0#16).wellFormed .doc = false ∧
    (Instr.unknownPt 2#2 0#1 0#5 199#8 0#16).wellFormed .doc = true ∧
    (Instr.unknownPt 2#2 0#1 0#5 208#8 0#16).wellFormed .doc = true := by decide

/-! ### Decoding: words written out bit by bit as V P C PT L (R90) -/

theorem test_decode_sr :
    decodeHeaderWord .doc 0b10_0_00000_11001000_0000000000000110#32 = .sr 2#2 0#1 0#5 6#16 := by decide

theorem test_decode_rr :
    decodeHeaderWord .doc 0b10_0_00001_11001001_0000000000000111#32 = .rr 2#2 0#1 1#5 7#16 := by decide

theorem test_decode_sdes :
    decodeHeaderWord .doc 0b10_1_00001_11001010_0000000000001100#32 = .sdes 2#2 1#1 1#5 12#16 := by decide

theorem test_decode_bye :
    decodeHeaderWord .doc 0b01_0_00001_11001011_0000000000000001#32 = .bye 1#2 0#1 1#5 1#16 := by decide

theorem test_decode_app :
    decodeHeaderWord .doc 0b10_0_11111_11001100_0000000000000011#32 = .app 2#2 0#1 31#5 3#16 := by decide

theorem test_decode_tlfbNack :
    decodeHeaderWord .doc 0b10_0_00001_11001101_0000000000000011#32 = .tlfbNack 2#2 0#1 3#16 := by decide

theorem test_decode_psfbPli :
    decodeHeaderWord .rfc 0b10_0_00001_11001110_0000000000000010#32 = .psfbPli 2#2 0#1 2#16 := by decide

theorem test_decode_psfbFir :
    decodeHeaderWord .doc 0b10_0_00010_11001110_0000000000000100#32 = .psfbFir 2#2 0#1 4#16 ∧
    decodeHeaderWord .rfc 0b10_0_00100_11001110_0000000000000100#32 = .psfbFir 2#2 0#1 4#16 := by decide

theorem test_decode_psfbRrr :
    decodeHeaderWord .doc 0b10_0_00100_11001110_0000000000000010#32 = .psfbRrr 2#2 0#1 2#16 ∧
    decodeHeaderWord .rfc 0b10_0_00101_11001101_0000000000000010#32 = .psfbRrr 2#2 0#1 2#16 := by decide

theorem test_decode_xr :
    decodeHeaderWord .doc 0b10_0_00000_11001111_1111111111111111#32 = .xr 2#2 0#1 0#5 0xFFFF#16 := by decide

theorem test_decode_tlfbUnregistered :
    decodeHeaderWord .doc 0b10_0_01111_11001101_0000000000000100#32 = .tlfbUnregistered 2#2 0#1 15#5 4#16 ∧
    decodeHeaderWord .doc 0b10_0_00101_11001101_0000000000000100#32 = .tlfbUnregistered 2#2 0#1 5#5 4#16 := by decide

theorem test_decode_psfbUnregistered :
    decodeHeaderWord .doc 0b10_0_00011_11001110_0000000000000010#32 = .psfbUnregistered 2#2 0#1 3#5 2#16 ∧
    decodeHeaderWord .rfc 0b10_0_00010_11001110_0000000000000010#32 = .psfbUnregistered 2#2 0#1 2#5 2#16 := by decide

theorem test_decode_unknownPt :
    decodeHeaderWord .doc 0b10_0_00000_11010000_0000000000000001#32 = .unknownPt 2#2 0#1 0#5 208#8 1#16 ∧
    decodeHeaderWord .doc 0#32 = .unknownPt 0#2 0#1 0#5 0#8 0#16 := by decide

/-- R100, with the ignored bits set. -/
theorem test_decode_commands :
    decode .doc (.csrWrite 0x00#8 0xFFFFFFFD#32) = .ok (.start false) ∧
    decode .doc (.csrWrite 0x00#8 0x00000003#32) = .ok (.start true) ∧
    decode .doc (.csrWrite 0x20#8 0xFFFFFFFF#32) = .ok .encClear ∧
    decode .doc (.csrWrite 0x28#8 0#32) = .ok (.encAppend 0#32) := by decide

/-- Writes that are no commands are rejected by name (R100). -/
theorem test_decode_notACommand :
    decode .doc (.csrWrite 0x00#8 2#32) = .error .notACommand ∧
    decode .doc (.csrWrite 0x20#8 2#32) = .error .notACommand ∧
    decode .doc (.csrWrite 0x08#8 1#32) = .error .notACommand ∧
    decode .doc (.csrWrite 0x29#8 1#32) = .error .notACommand := by decide

/-- HC-D1, HC-D5, HC-D6 and HC-D9. -/
theorem test_hdrDecode :
    hdrDecode [0x81#8, 0xC9#8, 0x00#8, 0x07#8] 32 = .ok ⟨2#2, 0#1, 1#5, 201#8, 7#16⟩ ∧
    hdrDecode [0x81#8, 0xC9#8, 0x00#8, 0x07#8, 0x11#8, 0x22#8] 6 = .ok ⟨2#2, 0#1, 1#5, 201#8, 7#16⟩ ∧
    hdrDecode [] 0 = .error .invalidHeader ∧
    hdrDecode [0x81#8, 0xC9#8, 0x00#8] 3 = .error .invalidHeader := by decide

/-- HC-E2, HC-E4 and HC-E5. -/
theorem test_hdrEncode :
    hdrEncode ⟨3#2, 1#1, 31#5, 255#8, 0xFFFF#16⟩ = [0xFF#8, 0xFF#8, 0xFF#8, 0xFF#8] ∧
    hdrEncode ⟨2#2, 1#1, 4#5, 206#8, 2#16⟩ = [0xA4#8, 0xCE#8, 0x00#8, 0x02#8] ∧
    hdrEncode ⟨1#2, 0#1, 0#5, 200#8, 0#16⟩ = [0x40#8, 0xC8#8, 0x00#8, 0x00#8] := by decide

/-- DS-9, DS-13, DS-15, DS-20 and DS-21. -/
theorem test_classify :
    classify .doc .wrongType 205#8 5#5 = .error .wrongType ∧ classify .rfc .wrongType 205#8 5#5 = .ok .psfbRrr ∧
    classify .doc .wrongType 206#8 2#5 = .ok .psfbFir ∧ classify .rfc .wrongType 206#8 2#5 = .error .wrongType ∧
    classify .doc .wrongType 206#8 4#5 = .ok .psfbRrr ∧ classify .rfc .wrongType 206#8 4#5 = .ok .psfbFir ∧
    classify .doc .unknownType 199#8 0#5 = .error .unknownType ∧
    classify .doc .wrongType 208#8 0#5 = .error .wrongType := by decide

/-- The numbers of R300 and R140. -/
theorem test_numbers :
    [ErrCode.ok, .invalidHeader, .packetTooShort, .wrongType, .badLength, .unknownType, .contentError,
      .lengthOverflow].map errNumber = [0#4, 1#4, 2#4, 3#4, 4#4, 5#4, 6#4, 7#4] ∧
    [PacketClass.sr, .rr, .sdes, .bye, .app, .tlfbNack, .psfbPli, .psfbFir, .psfbRrr, .xr].map classTag =
      [1#4, 2#4, 3#4, 4#4, 5#4, 6#4, 7#4, 8#4, 9#4, 10#4] := by decide

/-- PD-2, PD-4, PD-7, PD-8 and PD-9. -/
theorem test_padDetect :
    padDetect 1#1 12 0x04#8 = ⟨true, 4#8, true⟩ ∧ padDetect 1#1 8 0x05#8 = ⟨true, 5#8, false⟩ ∧
    padDetect 1#1 8 0x01#8 = ⟨true, 1#8, true⟩ ∧ padDetect 1#1 262144 0xFF#8 = ⟨true, 255#8, true⟩ ∧
    padDetect 0#1 4 0x00#8 = ⟨false, 0#8, false⟩ := by decide

/-- EN-1, EN-4 to EN-7, EN-10. -/
theorem test_lenEncode :
    lenEncode 4#32 = .ok 0#16 ∧ lenEncode 262144#32 = .ok 0xFFFF#16 ∧ lenEncode 262148#32 = .error .lengthOverflow ∧
    lenEncode 0xFFFFFFFC#32 = .error .lengthOverflow ∧ lenEncode 0#32 = .error .badLength ∧
    lenEncode 262145#32 = .error .badLength := by decide

/-- Where the host places a row's bits, the next step runs them: a header word and a CTRL write. -/
theorem test_withFetchWord :
    decodeTableWord 24 0x00CE0000 = some (.psfbUnregistered 0#2 0#1 0#5 0#16) ∧
    decodeTableWord 1 1 = some (.start false) ∧
    result (idle.withFetchWord 24 0x00CE0000) = some (0x302#32, 0#32, 0#32, 0#32) ∧
    result (idle.withFetchWord 1 1) = some (0x102#32, 0#32, 0#32, 0#32) := by decide

/-! ### The header instructions, one step each -/

/-- A Sender Report that does not end the buffer: the run goes on. -/
theorem test_sr :
    result (run [0x80, 0xC8, 0, 0, 0x80, 0xC9, 0, 0]) = some (0x001#32, 0#32, 4#32, 1#32) ∧
    entry (run [0x80, 0xC8, 0, 0, 0x80, 0xC9, 0, 0]) 0 = some [0x80C80000#32, 0#32, 4#32, 0x1#32] := by decide

/-- FR-3. -/
theorem test_rr :
    result (run [0x80, 0xC9, 0, 0]) = some (0x002#32, 0#32, 4#32, 1#32) ∧
    entry (run [0x80, 0xC9, 0, 0]) 0 = some [0x80C90000#32, 0#32, 4#32, 0x2#32] := by decide

/-- FR-4. -/
theorem test_rr_truncated :
    result (run [0x81, 0xC9, 0, 0x64]) = some (0x202#32, 0#32, 0#32, 0#32) := by decide

/-- PF-1. -/
theorem test_sdes :
    result (run [0xA1, 0xCA, 0, 2, 0x90, 0x2F, 0x9E, 0x2E, 0, 0, 0, 4]) = some (0x002#32, 0#32, 12#32, 1#32) ∧
    entry (run [0xA1, 0xCA, 0, 2, 0x90, 0x2F, 0x9E, 0x2E, 0, 0, 0, 4]) 0 =
      some [0xA1CA0002#32, 0#32, 12#32, 0x00040303#32] := by decide

/-- The second step of PF-3. -/
theorem test_bye :
    result { run [0xA0, 0xC9, 0, 1, 0, 0, 0, 4, 0x80, 0xCB, 0, 0] with offset := 8#32, pktCount := 1#32 } =
      some (0x002#32, 0#32, 12#32, 2#32) ∧
    entry { run [0xA0, 0xC9, 0, 1, 0, 0, 0, 4, 0x80, 0xCB, 0, 0] with offset := 8#32, pktCount := 1#32 } 1 =
      some [0x80CB0000#32, 8#32, 4#32, 0x4#32] := by decide

/-- The APP packet of L1-4, alone. -/
theorem test_app :
    entry (run [0x80, 0xCC, 0, 3, 0x4B, 0xAA, 0xE1, 0xAB, 0x4E, 0x41, 0x4D, 0x45, 0x41, 0x42, 0x43, 0x44]) 0 =
      some [0x80CC0003#32, 0#32, 16#32, 0x5#32] := by decide

theorem test_tlfbNack :
    entry (run [0x81, 0xCD, 0, 0]) 0 = some [0x81CD0000#32, 0#32, 4#32, 0x6#32] := by decide

/-- The Picture Loss Indication of L1-4, alone. -/
theorem test_psfbPli :
    entry (run [0x81, 0xCE, 0, 2, 0x90, 0x2F, 0x9E, 0x2E, 0x90, 0x2F, 0x9E, 0x2E]) 0 =
      some [0x81CE0002#32, 0#32, 12#32, 0x7#32] := by decide

/-- FR-11. -/
theorem test_psfbFir :
    entry (run [0xC2, 0xCE, 0, 2, 0x11, 0x11, 0x11, 0x11, 0x22, 0x22, 0x22, 0x22]) 0 =
      some [0xC2CE0002#32, 0#32, 12#32, 0x8#32] := by decide

/-- FR-12: the per-type decoder is asked, and fails a FIR without FCI. -/
theorem test_psfbFir_zeroFci :
    result { run [0x82, 0xCE, 0, 2, 0x11, 0x11, 0x11, 0x11, 0x22, 0x22, 0x22, 0x22] with frameOnly := false } =
      some (0x402#32, 0#32, 0#32, 0#32) := by decide

/-- The Rapid Resynchronization Request of L1-4, alone, and the same word under the RFC map, a FIR. -/
theorem test_psfbRrr :
    entry (run [0x84, 0xCE, 0, 2, 0x90, 0x2F, 0x9E, 0x2E, 0x90, 0x2F, 0x9E, 0x2E]) 0 =
      some [0x84CE0002#32, 0#32, 12#32, 0x9#32] ∧
    entry { run [0x84, 0xCE, 0, 0] with params := { idle.params with fbFormatMap := .rfc } } 0 =
      some [0x84CE0000#32, 0#32, 4#32, 0x8#32] := by decide

/-- DS-19, as a packet. -/
theorem test_xr :
    entry (run [0x9F, 0xCF, 0, 0]) 0 = some [0x9FCF0000#32, 0#32, 4#32, 0xA#32] := by decide

/-- The second step of FR-10. -/
theorem test_tlfbUnregistered :
    result { run [0x80, 0xC9, 0, 0, 0x8F, 0xCD, 0, 0] with offset := 4#32, pktCount := 1#32 } =
      some (0x302#32, 4#32, 4#32, 0#32) := by decide

/-- DS-14, as a packet. -/
theorem test_psfbUnregistered :
    result (run [0x83, 0xCE, 0, 0]) = some (0x302#32, 0#32, 0#32, 0#32) := by decide

/-- FR-6 under both values of UNKNOWN_PT_CODE. -/
theorem test_unknownPt :
    result (run [0x80, 0xD0, 0, 0]) = some (0x302#32, 0#32, 0#32, 0#32) ∧
    result { run [0x80, 0xD0, 0, 0] with params := { idle.params with unknownPtCode := .unknownType } } =
      some (0x502#32, 0#32, 0#32, 0#32) := by decide

/-- FR-5: PacketTooShort comes before WrongType. -/
theorem test_unknownPt_truncated :
    result (run [0x80, 0xD0, 0, 0x64]) = some (0x202#32, 0#32, 0#32, 0#32) := by decide

/-- The last step of FR-7: trailing bytes. -/
theorem test_trailingBytes :
    result { run [0x80, 0xC9, 0, 0, 0x80, 0xCA, 0, 0, 0, 0] with offset := 8#32, pktCount := 2#32 } =
      some (0x102#32, 8#32, 8#32, 0#32) := by decide

/-! ### The commands and the other host accesses -/

/-- L1-1. -/
theorem test_start_empty :
    result (hostDoes (.csrWrite 0x00#8 1#32) idle) = some (0x102#32, 0#32, 0#32, 0#32) := by decide

/-- The START of HK-10: a new run clears the old result. -/
theorem test_start_again :
    result (hostDoes (.csrWrite 0x00#8 3#32) { idle with done := true, err := .wrongType, errOffset := 4#32,
                                                         offset := 4#32, bufLen := 4#32 }) =
      some (0x001#32, 0#32, 0#32, 0#32) := by decide

/-- HK-1: START while BUSY = 1 is ignored. -/
theorem test_start_busy :
    (nextOf (step { hostDoes (.csrWrite 0x00#8 1#32) (run [0x80, 0xC9, 0, 0]) with sched := [.host] })).map
      (fun t => (t.busy, t.frameOnly)) = some (true, true) := by decide

/-- EA-6. -/
theorem test_encClear :
    encoded (hostDoes (.csrWrite 0x20#8 1#32) { encoding 0x80CC0000#32 0#32 0#32 with encErr := .badLength }) =
      some (0#32, 0#32, 0#32, 0#32) := by decide

/-- EA-1, EA-2 and EA-9. -/
theorem test_encAppend :
    encoded (hostDoes (.csrWrite 0x28#8 32#32) (encoding 0x81C90000#32 0#32 0#32)) =
      some (0x81C90007#32, 32#32, 1#32, 0#32) ∧
    encoded (hostDoes (.csrWrite 0x28#8 8#32) (encoding 0x80CB0000#32 56#32 3#32)) =
      some (0x80CB0001#32, 64#32, 4#32, 0#32) ∧
    encoded (hostDoes (.csrWrite 0x28#8 4#32) (encoding 0x40C80000#32 0#32 0#32)) =
      some (0x40C80000#32, 4#32, 1#32, 0#32) := by decide

/-- EA-3, EA-4 and EA-5. -/
theorem test_encAppend_fails :
    encoded (hostDoes (.csrWrite 0x28#8 8#32) (encoding 0x80CB0000#32 60#32 4#32)) =
      some (0#32, 0#32, 0#32, 0x700#32) ∧
    encoded (hostDoes (.csrWrite 0x28#8 18#32) (encoding 0x80CB0000#32 32#32 1#32)) =
      some (0#32, 0#32, 0#32, 0x400#32) ∧
    encoded (hostDoes (.csrWrite 0x28#8 16#32) { encoding 0x80CB0000#32 0#32 0#32 with encErr := .badLength }) =
      some (0#32, 0#32, 0#32, 0x400#32) := by decide

/-- EA-7. -/
theorem test_encFields :
    (nextOf (step (hostDoes (.csrWrite 0x24#8 0x81C90007#32) idle))).map (fun t => csrRead 0x24#8 t) =
      some 0x81C90000#32 := by decide

/-- HK-4 and HK-5, with MAX_IBUF = 256. -/
theorem test_bufLen :
    (nextOf (step (hostDoes (.csrWrite 0x08#8 257#32) { idle with bufLen := 16#32 }))).map (fun t => t.bufLen) =
      some 16#32 ∧
    (nextOf (step (hostDoes (.csrWrite 0x08#8 256#32) { idle with bufLen := 16#32 }))).map (fun t => t.bufLen) =
      some 256#32 := by decide

/-- HK-6: FRAME_ONLY is stored, no run starts. -/
theorem test_ctrl_noStart :
    (nextOf (step (hostDoes (.csrWrite 0x00#8 2#32) idle))).map (fun t => (csrRead 0x00#8 t, statusWord t)) =
      some (2#32, 0#32) := by decide

/-- HK-8. -/
theorem test_reservedOffsets :
    [0x3C#8, 0x02#8, 0x18#8].map (fun off => csrRead off idle) = [0#32, 0#32, 0#32] := by decide

/-- HK-3 while BUSY = 1, and the same write once the run is over. -/
theorem test_ibufWrite :
    (nextOf (step { hostDoes (.ibufWrite 3 0x07#8) (run [0x80, 0xC9, 0, 0]) with sched := [.host] })).map
      (fun t => readByte t 3) = some 0#8 ∧
    (nextOf (step (hostDoes (.ibufWrite 3 0x07#8) { run [0x80, 0xC9, 0, 0] with busy := false }))).map
      (fun t => readByte t 3) = some 7#8 := by decide

/-- The accesses programs P4 and P3 list for these lines of the notation (R101, R102). -/
theorem test_notation :
    decodeProgram 12#32 = [.access (.csrWrite 0x08#8 12#32), .access (.csrWrite 0x00#8 1#32), .wait] ∧
    frameProgram 12#32 = [.access (.csrWrite 0x08#8 12#32), .access (.csrWrite 0x00#8 3#32), .wait] ∧
    appendProgram 0x81C90000#32 32#32 = [.access (.csrWrite 0x24#8 0x81C90000#32), .access (.csrWrite 0x28#8 32#32)] ∧
    encNewProgram = [.access (.csrWrite 0x20#8 1#32)] ∧ rd 0x04#8 = [.access (.csrRead 0x04#8)] ∧
    wrb 4 [0x81#8, 0xC9#8] = [.access (.ibufWrite 4 0x81#8), .access (.ibufWrite 5 0xC9#8)] ∧
    rdd 1 3 = [.access (.dtabRead 28)] ∧ hdrWord 2#2 0#1 1#5 201#8 7#16 = 0x81C90007#32 := by decide

/-! ### Witnesses of the obligations' hypotheses -/

/-- The descriptor of a header-only Receiver Report at offset 0. -/
def firstEntry : Descriptor :=
  { hdr := 0x80C90000#32, off := 0#32, len := 4#32, tag := 2#4, padFlag := false, padValid := false, padCount := 0#8 }

/-- A run before its first packet of two. -/
def firstOfTwo : State :=
  run [0x80, 0xC9, 0, 0, 0x80, 0xCB, 0, 0]

/-- The same run before its second packet. -/
def secondOfTwo : State :=
  { firstOfTwo with offset := 4#32, pktCount := 1#32, dtab := [(0, firstEntry)] }

theorem inv_firstOfTwo : Inv firstOfTwo := by
  constructor <;> decide

theorem inv_secondOfTwo : Inv secondOfTwo := by
  constructor <;> decide

theorem tiled_secondOfTwo : Tiled secondOfTwo := by
  refine ⟨by decide, fun i hi => ?_⟩
  have hc : secondOfTwo.pktCount.toNat = 1 := by decide
  have h0 : i = 0 := by omega
  subst h0
  exact ⟨firstEntry, by decide, by decide, by decide, fun _ => by decide, fun _ => by decide,
    fun e h => absurd h (by decide)⟩

theorem witness_DecodeOfEncodeIsIdentity :
    (Instr.tlfbUnregistered 2#2 0#1 0#5 2#16).wellFormed .doc = true ∧
    (Instr.psfbUnregistered 2#2 0#1 31#5 2#16).wellFormed .rfc = true ∧
    (Instr.unknownPt 2#2 0#1 0#5 199#8 2#16).wellFormed .doc = true := by decide

theorem witness_EveryHeaderWordHasOneInstruction :
    (Instr.psfbFir 2#2 0#1 4#16).wellFormed .doc = true ∧
    encode .doc (Instr.psfbFir 2#2 0#1 4#16) = .header 0x82CE0004#32 := by decide

theorem witness_HeaderPeekReadsFourBytes : 4 ≤ 4 ∧ 4 ≤ 6 ∧ 0 < 4 ∧ 3 < 4 := by decide

theorem witness_HeaderFieldsComeFromTheirBytes :
    4 ≤ 4 ∧ hdrDecode [0xA1#8, 0xCA#8, 0x01#8, 0x02#8] 4 = .ok ⟨2#2, 1#1, 1#5, 202#8, 258#16⟩ := by decide

theorem witness_ClassifyIgnoresCountOfReports :
    ∀ pt ∈ [200#8, 201#8, 202#8, 203#8, 204#8, 207#8], classify .doc .wrongType pt 0#5 = classify .doc .wrongType pt 31#5 := by
  decide

theorem witness_StepRunsHeaderAtOffset :
    engineTurn secondOfTwo ∧ secondOfTwo.busy = true ∧ 4 ≤ remaining secondOfTwo :=
  ⟨.inr ⟨rfl, rfl⟩, rfl, by decide⟩

theorem witness_StepRunsHostAccess :
    hostTurn (hostDoes (.csrWrite 0x00#8 3#32) idle) ∧
    (hostDoes (.csrWrite 0x00#8 3#32) idle).host = .access (.csrWrite 0x00#8 3#32) :: [] ∧
    decode .doc (.csrWrite 0x00#8 3#32) = .ok (.start true) :=
  ⟨.inr ⟨rfl, rfl⟩, rfl, by decide⟩

theorem witness_PeekBelowFourBytesFails :
    engineTurn (run [0x81, 0xC9, 0]) ∧ (run [0x81, 0xC9, 0]).busy = true ∧ remaining (run [0x81, 0xC9, 0]) < 4 :=
  ⟨.inr ⟨rfl, rfl⟩, rfl, by decide⟩

theorem witness_IdleBlockHoldsState : idle.busy = false ∧ idle.host = [] := ⟨rfl, rfl⟩

theorem witness_WaitPollsStatus :
    (hostTurn { idle with host := [.wait] } ∧ ({ idle with host := [.wait] } : State).host = .wait :: []) ∧
    (hostTurn { firstOfTwo with host := [.wait], sched := [.host] } ∧
      ({ firstOfTwo with host := [.wait], sched := [.host] } : State).busy = true) :=
  ⟨⟨.inr ⟨rfl, rfl⟩, rfl⟩, .inl rfl, rfl⟩

/-- A truncated packet of an accepted class and one of a rejected class. -/
theorem witness_TruncatedPacketFails :
    (Instr.rr 2#2 0#1 1#5 100#16).headerUnder .doc = some ⟨2#2, 0#1, 1#5, 201#8, 100#16⟩ ∧
    (Instr.unknownPt 2#2 0#1 0#5 208#8 100#16).headerUnder .doc = some ⟨2#2, 0#1, 0#5, 208#8, 100#16⟩ ∧
    remaining (run [0x81, 0xC9, 0, 0x64]) < Header.declaredLength ⟨2#2, 0#1, 1#5, 201#8, 100#16⟩ := by decide

/-- Every accepted class, each as a header-only packet with four bytes left. -/
theorem witness_FrameOnlyRunAcceptsPacket :
    (∀ i ∈ [Instr.sr 2#2 0#1 0#5 0#16, .rr 2#2 0#1 0#5 0#16, .sdes 2#2 0#1 0#5 0#16, .bye 2#2 0#1 0#5 0#16,
        .app 2#2 0#1 0#5 0#16, .tlfbNack 2#2 0#1 0#16, .psfbPli 2#2 0#1 0#16, .psfbFir 2#2 0#1 0#16,
        .psfbRrr 2#2 0#1 0#16, .xr 2#2 0#1 0#5 0#16],
      ((i.headerUnder .doc).map Header.declaredLength = some 4 ∧ i.acceptedTag ≠ none)) ∧
    secondOfTwo.frameOnly = true ∧ 4 ≤ remaining secondOfTwo := by decide

theorem witness_TypeDecoderDecidesAcceptance :
    (Instr.bye 2#2 0#1 0#5 0#16).headerUnder .doc = some ⟨2#2, 0#1, 0#5, 203#8, 0#16⟩ ∧
    (Instr.bye 2#2 0#1 0#5 0#16).acceptedTag = some (classTag .bye) ∧
    ({ secondOfTwo with frameOnly := false } : State).frameOnly = false ∧
    Header.declaredLength ⟨2#2, 0#1, 0#5, 203#8, 0#16⟩ ≤ remaining { secondOfTwo with frameOnly := false } := by decide

theorem witness_RejectedClassFinishesRun :
    (∀ i ∈ [Instr.tlfbUnregistered 2#2 0#1 0#5 0#16, .psfbUnregistered 2#2 0#1 0#5 0#16, .unknownPt 2#2 0#1 0#5 208#8 0#16],
      ((i.headerUnder .doc).map Header.declaredLength = some 4 ∧ i.rejection .wrongType = some .wrongType)) ∧
    4 ≤ remaining secondOfTwo := by decide

theorem witness_HeaderInstructionFrame :
    ∃ t, (Instr.bye 2#2 0#1 0#5 0#16).headerUnder secondOfTwo.params.fbFormatMap = some ⟨2#2, 0#1, 0#5, 203#8, 0#16⟩ ∧
      exec (.bye 2#2 0#1 0#5 0#16) secondOfTwo = .next t :=
  ⟨_, by decide, rfl⟩

/-- FCI of 0 bytes and of 4 bytes. -/
theorem witness_FirWithBadFciFails :
    (12 ≤ ((2#16).toNat + 1) * 4 ∧ ((2#16).toNat + 1) * 4 - 12 = 0) ∧
    (12 ≤ ((3#16).toNat + 1) * 4 ∧ (((3#16).toNat + 1) * 4 - 12) % 8 ≠ 0) ∧
    ((3#16).toNat + 1) * 4 ≤ remaining { idle with bufLen := 16#32 } ∧ idle.frameOnly = false := by decide

theorem witness_AppWithoutNameFails :
    idle.frameOnly = false ∧ ((1#16).toNat + 1) * 4 < 12 ∧
    ((1#16).toNat + 1) * 4 ≤ remaining { idle with bufLen := 8#32 } := by decide

/-- A FIR window of each bad FCI length, a window below every minimum, an APP window without a Name. -/
theorem witness_TypeDecoderKeepsContract :
    (12 ≤ (List.replicate 12 0#8).length ∧ (List.replicate 12 0#8).length - 12 = 0) ∧
    (12 ≤ (List.replicate 16 0#8).length ∧ ((List.replicate 16 0#8).length - 12) % 8 ≠ 0) ∧
    ([] : List Byte).length < 4 + tdMinimum .sr ∧ (List.replicate 11 0#8).length < 12 := by
  refine ⟨by decide, by decide, ?_, by decide⟩
  simp only [List.length_nil]; omega

/-- A bare BYE, an RR body and an SR body of the required length, two sources of a BYE, and two BYE headers that differ in
Count. -/
theorem witness_ZeroEntryPacketsAreValid :
    ([] : List Byte).length = 0 ∧ (List.replicate 8 0#8).length = 4 * (2#5).toNat ∧
    ([0x90#8, 0x2F#8, 0x9E#8, 0x2E#8] : List Byte).length = 4 ∧
    (List.replicate (max 4 (Config.tdMinBody .sr)) 0#8).length = max 4 (Config.tdMinBody .sr) ∧
    PacketClass.bye ∈ [PacketClass.sr, .rr, .bye] ∧
    (⟨2#2, 0#1, 0#5, 203#8, 0#16⟩ : Header).pt = (⟨2#2, 0#1, 1#5, 203#8, 1#16⟩ : Header).pt :=
  ⟨rfl, by decide, rfl, by simp, by decide, rfl⟩

theorem witness_BusAccessFollowsHostMap :
    hostTurn { idle with host := [.bus ⟨0, 1, none⟩ [7#32]] } ∧
    ({ idle with host := [.bus ⟨0, 1, none⟩ [7#32]] } : State).host = .bus ⟨0, 1, none⟩ [7#32] :: [] :=
  ⟨.inr ⟨rfl, rfl⟩, rfl⟩

/-- A bus read that HOST_MAP has read STATUS for keeps the word, and its reply returns what HOST_MAP makes of it (R63). -/
theorem test_busRead :
    (nextOf (busAccess (some (.native (.csrRead 0x04#8))) ⟨1, 1, none⟩ [] [] { idle with done := true })).map
      (fun t => (t.host, t.responses)) = some ([.bus ⟨1, 1, none⟩ [2#32]], []) ∧
    (nextOf (busAccess (some (.reply [2#32])) ⟨1, 1, none⟩ [2#32] [] { idle with done := true })).map
      (fun t => (t.host, t.responses)) = some ([], [2#32]) := by decide

/-- A bus write that HOST_MAP performs as an IBUF byte write. -/
theorem test_busWrite :
    (nextOf (busAccess (some (.native (.ibufWrite 3 0x81#8))) ⟨3, 1, some 0x81⟩ [] [.wait] idle)).map
      (fun t => (readByte t 3, t.host, t.responses)) = some (0x81#8, [.bus ⟨3, 1, some 0x81⟩ [0#32], .wait], []) := by
  decide

theorem witness_AppendFramesPacket :
    (encoding 0x80CB0000#32 56#32 3#32).encErr = .ok ∧
    (encoding 0x80CB0000#32 56#32 3#32).encOffset.toNat + ((1#16).toNat + 1) * 4 ≤
      (encoding 0x80CB0000#32 56#32 3#32).params.maxObuf.toNat := by decide

/-- A size for each of the three failures. -/
theorem witness_AppendFailsWithCode :
    (encoding 0x80CB0000#32 60#32 4#32).encErr = .ok ∧
    ((0#32).toNat = 0 ∧ (262145#32).toNat % 4 ≠ 0) ∧
    ((262148#32).toNat % 4 = 0 ∧ 262144 < (262148#32).toNat) ∧
    ((8#32).toNat ≠ 0 ∧ (8#32).toNat % 4 = 0 ∧ (8#32).toNat ≤ 262144 ∧
      (encoding 0x80CB0000#32 60#32 4#32).params.maxObuf.toNat <
        (encoding 0x80CB0000#32 60#32 4#32).encOffset.toNat + (8#32).toNat) := by decide

theorem witness_AppendIgnoredOnceFailed :
    (encodeFailedWith .badLength idle).encErr ≠ .ok ∧
    (∃ t, (Instr.start true) ≠ .encClear ∧ exec (.start true) (encodeFailedWith .badLength idle) = .next t) ∧
    ∃ t, idle.encErr = .ok ∧ exec (.encAppend 2#32) idle = .next t ∧ t.encErr ≠ .ok :=
  ⟨by decide, ⟨_, by decide, rfl⟩, _, rfl, rfl, by decide⟩

theorem witness_ClearStartsNewOutput :
    (0xFFFFFFFF#32).getLsbD 0 = true ∧
    ∃ t, (encodeFailedWith .badLength idle).encErr ≠ .ok ∧
      exec .encClear (encodeFailedWith .badLength idle) = .next t ∧ t.encErr = .ok :=
  ⟨by decide, _, by decide, rfl, rfl⟩

theorem witness_StartBeginsRunOrFinishes :
    (1#32).getLsbD 0 = true ∧ (0xFFFFFFFF#32).getLsbD 0 = true := by decide

theorem witness_EncodedHeaderDeclaresSize :
    ∃ t, (encoding 0x81C90000#32 0#32 0#32).encErr = .ok ∧
      exec (.encAppend 32#32) (encoding 0x81C90000#32 0#32 0#32) = .next t ∧ t.encErr = .ok :=
  ⟨_, rfl, rfl, by decide⟩

/-- The second state differs from the first in BUSY only. -/
theorem witness_EncodeIndependentOfDecode :
    ∃ t t', exec (.encAppend 8#32) idle = .next t ∧ SameEncode idle { idle with busy := true } ∧
      exec (.encAppend 8#32) { idle with busy := true } = .next t' :=
  ⟨_, _, rfl, ⟨rfl, rfl, rfl, rfl, rfl⟩, rfl⟩

theorem witness_AppendedSizesAddUp :
    idle.encErr = .ok ∧ ([8#32, 56#32].foldl afterAppend idle).encErr = .ok := by decide

theorem witness_PlainCsrWriteStoresField :
    (2#32).getLsbD 0 = false ∧ (0x29#8 : BitVec 8) ∉ [0x00#8, 0x08#8, 0x20#8, 0x24#8, 0x28#8] := by decide

theorem witness_CsrReadReturnsRegister :
    ∀ off ∈ [0x01#8, 0x18#8, 0x20#8, 0x28#8, 0x3C#8, 0xFF#8],
      off ∉ [0x00#8, 0x04#8, 0x08#8, 0x0C#8, 0x10#8, 0x14#8, 0x24#8, 0x2C#8, 0x30#8, 0x34#8, 0x38#8] := by decide

theorem witness_BusyDropsControlWrites :
    firstOfTwo.busy = true ∧ (∀ off ∈ [0x20#8, 0x24#8, 0x28#8], ∃ t t',
      hostAccess (.csrWrite off 8#32) firstOfTwo = .next t ∧
      hostAccess (.csrWrite off 8#32) { firstOfTwo with busy := false } = .next t') := by
  refine ⟨rfl, fun off h => ?_⟩
  simp only [List.mem_cons, List.not_mem_nil, or_false] at h
  rcases h with rfl | rfl | rfl <;> exact ⟨_, _, rfl, rfl⟩

/-- The last address of IBUF and the first one past it. -/
theorem witness_HostReadsAndWritesIbuf :
    (idle.busy = false ∧ 255 < idle.params.maxIbuf.toNat) ∧ firstOfTwo.busy = true ∧
    idle.params.maxIbuf.toNat ≤ 256 := by decide

/-- The last word of the table, a misaligned offset, and the first offset past the table. -/
theorem witness_HostReadsDtab :
    (63 < idle.params.maxIbuf.toNat / 4 ∧ 3 < 4) ∧ 2 % 4 ≠ 0 ∧ 16 * (idle.params.maxIbuf.toNat / 4) ≤ 1024 := by decide

theorem witness_ResetRestoresRegisters :
    hostTurn { firstOfTwo with host := [.reset], sched := [.host] } ∧
    ({ firstOfTwo with host := [.reset], sched := [.host] } : State).host = .reset :: [] :=
  ⟨.inl rfl, rfl⟩

theorem witness_StepKeepsLegal : Inv secondOfTwo ∧ ∃ t, step secondOfTwo = .next t :=
  ⟨inv_secondOfTwo, _, rfl⟩

theorem witness_StepKeepsDescriptorsTiled :
    Inv secondOfTwo ∧ Tiled secondOfTwo ∧ ∃ t, step secondOfTwo = .next t :=
  ⟨inv_secondOfTwo, tiled_secondOfTwo, _, rfl⟩

theorem witness_StepKeepsParameters : ∃ t, step secondOfTwo = .next t := ⟨_, rfl⟩

/-- The same run with a reset waiting for the host's turn. -/
def resetQueued : State :=
  { secondOfTwo with host := [.reset] }

/-- A run's next packet, with no host action and with a reset queued. -/
theorem witness_RunInputIsFrozen :
    (secondOfTwo.busy = true ∧ ¬ (hostTurn secondOfTwo ∧ secondOfTwo.host.head? = some .reset) ∧
      ∃ t, step secondOfTwo = .next t) ∧
    (resetQueued.busy = true ∧ resetQueued.host.head? = some .reset ∧
      ¬ (hostTurn resetQueued ∧ resetQueued.host.head? = some .reset) ∧ ∃ t, step resetQueued = .next t) := by
  refine ⟨⟨rfl, fun h => absurd h.2 (by decide), _, rfl⟩, rfl, rfl, fun h => ?_, _, rfl⟩
  rcases h.1 with h | h
  · exact absurd h (by decide)
  · exact absurd h.2 (by decide)

/-- An engine step, and a host step of an idle block. -/
theorem witness_OnlyEngineWritesDtab :
    ((∃ t, step secondOfTwo = .next t) ∧ ¬ (hostTurn secondOfTwo ∧ secondOfTwo.host.head? = some .reset)) ∧
    ((∃ t, step (hostDoes (.dtabWrite 0 0#32) idle) = .next t) ∧
      ¬ (hostTurn (hostDoes (.dtabWrite 0 0#32) idle) ∧
        (hostDoes (.dtabWrite 0 0#32) idle).host.head? = some .reset) ∧
      (hostDoes (.dtabWrite 0 0#32) idle).busy = false) :=
  ⟨⟨⟨_, rfl⟩, fun h => absurd h.2 (by decide)⟩, ⟨_, rfl⟩, fun h => absurd h.2 (by decide), rfl⟩

/-- A step that goes on and one that ends the run. -/
theorem witness_EngineStepMakesProgress :
    (Inv firstOfTwo ∧ engineTurn firstOfTwo ∧ firstOfTwo.busy = true ∧ ∃ t, step firstOfTwo = .next t ∧ t.busy = true) ∧
    (Inv secondOfTwo ∧ engineTurn secondOfTwo ∧ secondOfTwo.busy = true ∧
      ∃ t, step secondOfTwo = .next t ∧ t.busy = false) :=
  ⟨⟨inv_firstOfTwo, .inr ⟨rfl, rfl⟩, rfl, _, rfl, by decide⟩, inv_secondOfTwo, .inr ⟨rfl, rfl⟩, rfl, _, rfl, by decide⟩

theorem witness_RunEndsWithinBound :
    Inv firstOfTwo ∧ firstOfTwo.busy = true ∧ firstOfTwo.host = [] ∧ firstOfTwo.sched = [] :=
  ⟨inv_firstOfTwo, rfl, rfl, rfl⟩

theorem witness_RunComputesDecodeAll :
    ({ firstOfTwo with busy := false } : State).busy = false ∧ ({ firstOfTwo with busy := false } : State).host = [] ∧
    ({ firstOfTwo with busy := false } : State).sched = [] :=
  ⟨rfl, rfl, rfl⟩

/-- FR-7 as DECODE_ALL: an error after two packets. -/
theorem test_decodeAll :
    decodeAll idle.params true ([0x80, 0xC9, 0, 0, 0x80, 0xCA, 0, 0, 0, 0].map (BitVec.ofNat 8)) =
      .error (.invalidHeader, 8) := by decide

end Sys2Proof.Tests
end

namespace Sys2Proof.Machine

/-! ### The build-time parameters are constant (R6, R158)

One lemma per result relation of Laws/Steps: whatever the operation leaves, it leaves the parameters as they were. -/

@[simp] theorem afterPick_params (s : State) : (afterPick s).params = s.params := rfl

theorem accept_params (k : PacketClass) (h : Header) (s : State) : (accept k h s).params = s.params := by
  obtain ⟨-, -, -, -, -, -, hparams⟩ := accept_fields k h s
  exact hparams

variable {s t : State}

theorem FrameResult.params_eq (h : FrameResult s t) : t.params = s.params := by
  cases h with
  | fails e _ => exact finish_params s e s.offset
  | accepts k h _ => exact accept_params k h s

theorem CommandResult.params_eq (h : CommandResult s t) : t.params = s.params := by
  cases h with
  | noEffect => rfl
  | startsEmpty | starts | clears | appendFails | appends => simp

theorem AccessResult.params_eq (h : AccessResult s t) : t.params = s.params := by
  cases h with
  | ignored => rfl
  | command hc => exact hc.params_eq
  | reads | setsFrameOnly | setsBufLen | setsEncFields | writes => simp

theorem HostResult.params_eq (h : HostResult s t) : t.params = s.params := by
  cases h with
  | nothing => rfl
  | access left ha => exact ha.params_eq.trans (setHost_params s left)
  | waits | waited | busReplies | resets => simp

theorem EngineResult.params_eq (h : EngineResult s t) : t.params = s.params := by
  cases h with
  | disabled => rfl
  | peekFails => exact finish_params s _ _
  | frames _ hf => exact hf.params_eq

theorem step_params_eq (h : step s = .next t) : t.params = s.params := by
  rcases step_result h with ⟨-, hhost⟩ | ⟨-, hengine⟩
  · exact hhost.params_eq.trans (afterPick_params s)
  · exact hengine.params_eq.trans (afterPick_params s)

/-- Settles O48: a step is a host step or an engine step, and everything either can leave has the old parameters. -/
theorem stepKeepsParameters : Obligations.StepKeepsParameters :=
  fun _ _ h => step_params_eq h

end Sys2Proof.Machine

namespace Sys2Proof.Machine

/-! ### Every step keeps the legal states (R23, R26 to R38, R175, R177, R300)

One lemma per named operation on the state, under the facts the result relations of Laws/Steps give; the step lemma cites
them. A clause of `Inv` that speaks of no field an operation writes is carried over by `h with`. -/

variable {s t : State}

/-- No legal state depends on FRAME_ONLY, on the reset count, or on what stands outside the block. -/
theorem Inv.changeUnconstrained (h : Inv s) (f : Bool) (n : Nat) (acts : List HostAction) (picks : List Agent)
    (vs : List Word) :
    Inv { s with frameOnly := f, resets := n, host := acts, sched := picks, responses := vs } :=
  { h with }

theorem Inv.afterPick (h : Inv s) : Inv (afterPick s) :=
  h.changeUnconstrained _ _ _ _ _

theorem Inv.setHost (h : Inv s) (acts : List HostAction) : Inv (setHost acts s) :=
  h.changeUnconstrained _ _ _ _ _

theorem Inv.respond (h : Inv s) (v : Word) : Inv (respond v s) :=
  h.changeUnconstrained _ _ _ _ _

theorem Inv.respondAll (h : Inv s) (vs : List Word) : Inv (respondAll vs s) :=
  h.changeUnconstrained _ _ _ _ _

theorem Inv.setFrameOnly (h : Inv s) (f : Bool) : Inv (setFrameOnly f s) :=
  h.changeUnconstrained _ _ _ _ _

/-- A legal BUF_LEN may be anything while no run is in progress (R27). -/
theorem Inv.setBufLen (h : Inv s) {w : Word} (hidle : s.busy = false) (hw : w.toNat ≤ s.params.maxIbuf.toNat) :
    Inv (setBufLen w s) :=
  { h with
    running := fun hbusy => absurd (hidle.symm.trans hbusy) Bool.false_ne_true
    lengthInIbuf := hw }

theorem Inv.setEncFields (h : Inv s) (w : Word) : Inv (setEncFields w s) :=
  { h with fieldsReserved := BitVec.extractLsb'_append_eq_right }

theorem Inv.writeByte (h : Inv s) {a : Nat} (v : Byte) (ha : a < s.params.maxIbuf.toNat) : Inv (writeByte a v s) :=
  { h with ibufWf := writeByte_wf v ha h.ibufWf }

/-- START's clearing leaves a legal idle block (R170). -/
theorem Inv.clearRun (h : Inv s) (f : Bool) (hidle : s.busy = false) : Inv (clearRun f s) :=
  { h with
    control := by simp
    running := by simp [hidle]
    aligned := rfl
    offsetInIbuf := Nat.zero_le _
    counted := Nat.le_refl _
    noError := fun _ => rfl
    failedRun := fun herr => absurd rfl herr
    idle := fun _ _ => ⟨rfl, rfl, rfl⟩
    decodeCodes := by simp }

/-- A run may begin where nothing is left of the last one and the buffer is not empty (R170). -/
theorem Inv.setBusy (h : Inv s) (hdone : s.done = false) (herr : s.err = .ok) (hstart : s.offset.toNat < s.bufLen.toNat) :
    Inv (setBusy s) :=
  { h with
    control := by simp [hdone]
    running := fun _ => ⟨hstart, herr⟩
    idle := by simp }

/-- Failing at OFFSET is legal in any state (R303). -/
theorem Inv.finishError (h : Inv s) {e : ErrCode} (he : isFramingError s.params e) : Inv (finish e s.offset s) := by
  obtain ⟨hok, hcodes⟩ := he
  exact
    { h with
      control := by simp
      running := by simp
      aligned := by simpa using h.aligned
      offsetInIbuf := by simpa using h.offsetInIbuf
      counted := by simp [hok]
      noError := fun herr => absurd herr hok
      failedRun := by simp [hok]
      idle := by simp
      decodeCodes := hcodes }

/-- No run fails with a code the parameters rule out when it fails with InvalidHeader (R300). -/
theorem isFramingError_invalidHeader (p : Params) : isFramingError p .invalidHeader :=
  ⟨by simp, by simp, by simp⟩

/-- A run's packet that fits ends inside IBUF, so OFFSET and PKT_COUNT do not wrap and its DTAB entry exists (R175). -/
theorem Inv.packetFits (h : Inv s) (hbusy : s.busy = true) {hd : Header} (hfit : hd.declaredLength ≤ remaining s) :
    (s.offset + BitVec.ofNat 32 hd.declaredLength).toNat = s.offset.toNat + hd.declaredLength ∧
      (s.pktCount + 1#32).toNat = s.pktCount.toNat + 1 ∧
      s.offset.toNat + hd.declaredLength ≤ s.bufLen.toNat ∧
      s.pktCount.toNat < dtabDepth s.params := by
  obtain ⟨hmin, -, -⟩ := hd.declaredLength_range
  obtain ⟨hlt, -⟩ := h.running hbusy
  have hlen := h.lengthInIbuf
  have hcount := h.counted
  have hmax := s.params.maxIbuf.isLt
  unfold remaining at hfit
  refine ⟨?_, ?_, by omega, by unfold dtabDepth; omega⟩ <;>
    simp only [BitVec.toNat_add, BitVec.toNat_ofNat] <;> omega

/-- The clauses on the counters and DTAB hold again once a run's packet is recorded (R175 to R177). -/
theorem Inv.countersAfterPacket (h : Inv s) (hbusy : s.busy = true) (d : Descriptor) {hd : Header}
    (hfit : hd.declaredLength ≤ remaining s) :
    (recordPacket d hd.declaredLength s).offset.toNat % 4 = 0 ∧
      (recordPacket d hd.declaredLength s).offset.toNat ≤ s.params.maxIbuf.toNat ∧
      4 * (recordPacket d hd.declaredLength s).pktCount.toNat ≤ (recordPacket d hd.declaredLength s).offset.toNat ∧
      Dtab.wf s.params (recordPacket d hd.declaredLength s).dtab = true := by
  obtain ⟨hmin, -, hmod⟩ := hd.declaredLength_range
  obtain ⟨hoffset, hcount, hend, hdepth⟩ := h.packetFits hbusy hfit
  have haligned := h.aligned
  have hlen := h.lengthInIbuf
  have hcounted := h.counted
  refine ⟨?_, ?_, ?_, recordPacket_wf d _ hdepth h.dtabWf⟩ <;>
    simp only [recordPacket_offset, recordPacket_pktCount, hoffset, hcount] <;> omega

/-- Acceptance records the packet, and ends the run where the packet ends the buffer (R176). -/
theorem accept_cases (k : PacketClass) (hd : Header) (s : State) :
    (s.offset.toNat + hd.declaredLength = s.bufLen.toNat ∧
      accept k hd s = finish .ok 0#32 (recordPacket (descriptorOf k hd s) hd.declaredLength s)) ∨
    (s.offset.toNat + hd.declaredLength ≠ s.bufLen.toNat ∧
      accept k hd s = recordPacket (descriptorOf k hd s) hd.declaredLength s) := by
  by_cases hend : s.offset.toNat + hd.declaredLength = s.bufLen.toNat <;> simp [accept, hend]

/-- Accepting a packet of a run is legal: the run goes on below BUF_LEN, or is over at it (R176, R177). -/
theorem Inv.acceptPacket (h : Inv s) (hbusy : s.busy = true) (k : PacketClass) {hd : Header}
    (hfit : hd.declaredLength ≤ remaining s) : Inv (accept k hd s) := by
  obtain ⟨-, herr⟩ := h.running hbusy
  obtain ⟨hoffset, -, hend, -⟩ := h.packetFits hbusy hfit
  obtain ⟨haligned, hinIbuf, hcounted, hdtab⟩ := h.countersAfterPacket hbusy (descriptorOf k hd s) hfit
  rcases accept_cases k hd s with ⟨-, e⟩ | ⟨hne, e⟩ <;> rw [e]
  · exact
      { h with
        control := by simp
        running := by simp
        aligned := haligned
        offsetInIbuf := hinIbuf
        counted := hcounted
        noError := fun _ => rfl
        failedRun := by simp
        idle := by simp
        decodeCodes := by simp
        dtabWf := hdtab }
  · have hlt : (recordPacket (descriptorOf k hd s) hd.declaredLength s).offset.toNat < s.bufLen.toNat := by
      rw [recordPacket_offset, hoffset]; omega
    exact
      { h with
        running := fun _ => ⟨hlt, herr⟩
        aligned := haligned
        offsetInIbuf := hinIbuf
        counted := hcounted
        failedRun := fun hfailed => absurd herr hfailed
        idle := by simp [hbusy]
        dtabWf := hdtab }

/-- An encode unit without output is legal under each code it knows (R232, R236). -/
theorem Inv.encReset (h : Inv s) {e : ErrCode} (he : e = .ok ∨ e = .badLength ∨ e = .lengthOverflow) :
    Inv (encReset e s) :=
  { h with
    encodeCodes := he
    encodeLength := ⟨Nat.zero_le _, rfl⟩
    encodeCounted := Nat.le_refl _
    encodeFailed := fun _ => ⟨rfl, rfl, rfl⟩ }

/-- Appending a packet that fits MAX_OBUF is legal, and neither ENC_OFFSET nor ENC_COUNT wraps (R233, R238). -/
theorem Inv.recordAppend (h : Inv s) (hok : s.encErr = .ok) {size : Word} {l : BitVec 16} (w : Word)
    (hl : lenEncode size = .ok l) (hfit : s.encOffset.toNat + size.toNat ≤ s.params.maxObuf.toNat) :
    Inv (recordAppend w size s) := by
  obtain ⟨-, hmod⟩ := h.encodeLength
  have hsize := lenEncode_ok hl
  have hcounted := h.encodeCounted
  have hmax := s.params.maxObuf.isLt
  have hoffset : (s.encOffset + size).toNat = s.encOffset.toNat + size.toNat := by
    rw [BitVec.toNat_add]; omega
  have hcount : (s.encCount + 1#32).toNat = s.encCount.toNat + 1 := by
    simp only [BitVec.toNat_add, BitVec.toNat_ofNat]; omega
  exact
    { h with
      encodeLength := by simp only [recordAppend_encOffset, recordAppend_params, hoffset]; omega
      encodeCounted := by simp only [recordAppend_encOffset, recordAppend_encCount, hoffset, hcount]; omega
      encodeFailed := fun hne => absurd hok hne }

/-- The reset leaves a legal state, whatever it ends (R42, R340). -/
theorem inv_resetBlock (s : State) : Inv (resetBlock s) where
  control := by simp
  running := by simp
  aligned := rfl
  offsetInIbuf := Nat.zero_le _
  lengthInIbuf := Nat.zero_le _
  counted := Nat.le_refl _
  noError := fun _ => rfl
  failedRun := by simp
  idle := fun _ _ => ⟨rfl, rfl, rfl⟩
  decodeCodes := by simp
  fieldsReserved := by simp
  encodeCodes := .inl rfl
  encodeLength := ⟨Nat.zero_le _, rfl⟩
  encodeCounted := Nat.le_refl _
  encodeFailed := by simp
  ibufWf := rfl
  dtabWf := rfl

theorem FrameResult.inv (hr : FrameResult s t) (h : Inv s) (hbusy : s.busy = true) : Inv t := by
  cases hr with
  | fails e he => exact h.finishError he
  | accepts k hd hfit => exact h.acceptPacket hbusy k hfit

theorem CommandResult.inv (hr : CommandResult s t) (h : Inv s) : Inv t := by
  cases hr with
  | noEffect => exact h
  | startsEmpty f hidle _ => exact (h.clearRun f hidle).finishError (isFramingError_invalidHeader _)
  | starts f hidle hlen =>
    have hpos : 0 < s.bufLen.toNat := Nat.pos_of_ne_zero fun hz => hlen (BitVec.eq_of_toNat_eq hz)
    exact (h.clearRun f hidle).setBusy rfl rfl hpos
  | clears => exact h.encReset (.inl rfl)
  | appendFails e _ he => exact h.encReset (.inr he)
  | appends size l hok hl hfit => exact h.recordAppend hok _ hl hfit

theorem AccessResult.inv (hr : AccessResult s t) (h : Inv s) : Inv t := by
  cases hr with
  | ignored => exact h
  | reads v => exact h.respond v
  | command hc => exact hc.inv h
  | setsFrameOnly b _ => exact h.setFrameOnly b
  | setsBufLen w hidle hw => exact h.setBufLen hidle hw
  | setsEncFields w => exact h.setEncFields w
  | writes a v _ ha => exact h.writeByte v ha

theorem HostResult.inv (hr : HostResult s t) (h : Inv s) : Inv t := by
  cases hr with
  | nothing => exact h
  | access left ha => exact ha.inv (h.setHost left)
  | waits rest _ _ => exact h.respond _
  | waited rest _ _ => exact (h.setHost rest).respond _
  | busReplies rest b answers pieces _ => exact (h.setHost rest).respondAll pieces
  | resets rest _ => exact inv_resetBlock _

theorem EngineResult.inv (hr : EngineResult s t) (h : Inv s) : Inv t := by
  cases hr with
  | disabled => exact h
  | peekFails => exact h.finishError (isFramingError_invalidHeader _)
  | frames hbusy hf => exact hf.inv h hbusy

theorem step_keeps_inv (h : Inv s) (hstep : step s = .next t) : Inv t := by
  rcases step_result hstep with ⟨-, hhost⟩ | ⟨-, hengine⟩
  · exact hhost.inv h.afterPick
  · exact hengine.inv h.afterPick

/-- Settles O46: a step is a host step or an engine step, and each thing either can leave is legal. -/
theorem stepKeepsLegal : Obligations.StepKeepsLegal :=
  fun _ _ => step_keeps_inv

/-- The state after reset is legal, for it differs from what the reset input leaves in the reset count only. -/
theorem inv_reset : Inv State.reset :=
  { inv_resetBlock State.reset with }

/-- Settles O45: no descriptor lies below PKT_COUNT = 0. -/
theorem legalAtReset : Obligations.LegalAtReset :=
  ⟨inv_reset, fun _ _ => rfl, fun _ hi => absurd hi (Nat.not_lt_zero _)⟩

end Sys2Proof.Machine

namespace Sys2Proof.Machine

/-! ### What the words of R25, R26, R36 and R38 hold, bit by bit -/

/-- Which field each bit of the D_INFO word belongs to (R38). -/
theorem infoWord_bit (d : Descriptor) (i : Nat) :
    (infoWord d).getLsbD i =
      if i < 4 then d.tag.getLsbD i
      else if i = 8 then d.padFlag
      else if i = 9 then d.padValid
      else if 16 ≤ i ∧ i < 24 then d.padCount.getLsbD (i - 16)
      else false := by
  show BitVec.getLsbD (w := 8 + 8 + 6 + 1 + 1 + 4 + 4)
    (0#8 ++ d.padCount ++ 0#6 ++ BitVec.ofBool d.padValid ++ BitVec.ofBool d.padFlag ++ 0#4 ++ d.tag) i = _
  simp only [BitVec.getLsbD_append, BitVec.getLsbD_ofBool, BitVec.getLsbD_zero]
  split_ifs <;> grind

/-- D_INFO is word 3 of an entry (R38). -/
theorem descriptorWord_info (d : Descriptor) : descriptorWord d 3 = infoWord d := rfl

/-- Settles O25: each field is read off the bits it stands in. -/
theorem descriptorInfoLayout : Obligations.DescriptorInfoLayout := by
  intro d
  rw [descriptorWord_info]
  refine ⟨?_, ?_, infoWord_bit d 8, infoWord_bit d 9, ?_, ?_, ?_⟩ <;>
    · apply BitVec.eq_of_getLsbD_eq
      intro i hi
      simp only [BitVec.getLsbD_extractLsb', infoWord_bit, hi, decide_true, Bool.true_and, BitVec.getLsbD_zero]
      grind

/-- STATUS is made of one 4-bit number and two flags (R26). -/
theorem statusWord_bits : ∀ (e : BitVec 4) (d b : Bool),
    0#20 ++ e ++ 0#6 ++ BitVec.ofBool d ++ BitVec.ofBool b =
      e.setWidth 32 <<< 8 ||| (if d then 2#32 else 0#32) ||| (if b then 1#32 else 0#32) := by decide

theorem encStatusWord_bits : ∀ e : BitVec 4, 0#20 ++ e ++ 0#8 = e.setWidth 32 <<< 8 := by decide

theorem ctrlWord_bits : ∀ f : Bool, 0#30 ++ BitVec.ofBool f ++ 0#1 = if f then 2#32 else 0#32 := by decide

/-- Settles O36: the words depend on one 4-bit number and two flags, so every value is checked. -/
theorem statusWordLayout : Obligations.StatusWordLayout :=
  ⟨by decide, fun s => ⟨statusWord_bits (errNumber s.err) s.done s.busy, encStatusWord_bits (errNumber s.encErr),
    ctrlWord_bits s.frameOnly⟩⟩

end Sys2Proof.Machine

namespace Sys2Proof.Machine

/-! ### What instructions and steps leave unchanged (R39, R40, R176, R230) -/

variable {s t : State}

/-- The frame of a FRAME_STEP (R39, R40, R176, R230): what it leaves of every part of the state it does not write. -/
structure FrameKeeps (s t : State) : Prop where
  encode : SameEncode s t
  world : SameWorld s t
  frameOnly : t.frameOnly = s.frameOnly
  bufLen : t.bufLen = s.bufLen
  ibuf : ∀ a, readByte t a = readByte s a
  dtab : ∀ j k, j ≠ s.pktCount.toNat → dtabWord t j k = dtabWord s j k

theorem FrameResult.keeps (hr : FrameResult s t) : FrameKeeps s t := by
  cases hr with
  | fails e _ =>
    exact
      { encode := ⟨rfl, rfl, rfl, rfl, rfl⟩
        world := ⟨rfl, rfl, rfl, rfl, rfl⟩
        frameOnly := rfl
        bufLen := rfl
        ibuf := readByte_congr rfl rfl
        dtab := fun j k _ => dtabWord_congr rfl rfl j k }
  | accepts cls h _ =>
    obtain ⟨hdtab, -, -, hbufLen, hframeOnly, hibuf, hparams⟩ := accept_fields cls h s
    obtain ⟨hfields, hhdr, hoffset, herr, hcount, hresets, hhost, hsched, hresponses⟩ := accept_frame cls h s
    exact
      { encode := ⟨hfields, hhdr, hoffset, herr, hcount⟩
        world := ⟨hparams, hresets, hhost, hsched, hresponses⟩
        frameOnly := hframeOnly
        bufLen := hbufLen
        ibuf := readByte_congr hibuf hresets
        dtab := fun j k hj => by simp [dtabWord, hdtab, hresets, Cells.lookup_insert_other _ _ hj] }

/-- An instruction that stands for a header frames, and never acts as a command (R97, R172). -/
theorem exec_headerUnder {i : Instr} {h : Header} (hi : i.headerUnder s.params.fbFormatMap = some h)
    (ht : exec i s = .next t) : FrameResult s t := by
  obtain ⟨t', ht', ⟨_, -, hr⟩ | ⟨o, w, hform, -⟩⟩ := exec_result i s
  · rw [ht'] at ht
    cases ht
    exact hr
  · simp [Instr.headerUnder, hform] at hi

/-- Settles O20: a header instruction leaves a failure at OFFSET or an accepted packet, and either keeps the frame. -/
theorem headerInstructionFrame : Obligations.HeaderInstructionFrame := by
  intro s t i h hi ht
  have hk := (exec_headerUnder hi ht).keeps
  exact ⟨hk.encode, hk.world, hk.frameOnly, hk.bufLen, hk.ibuf, hk.dtab⟩

/-- DTAB and what its unwritten entries read as are the same. -/
structure SameDtab (s t : State) : Prop where
  dtab : t.dtab = s.dtab
  resets : t.resets = s.resets

theorem SameDtab.word (h : SameDtab s t) (j k : Nat) : dtabWord t j k = dtabWord s j k :=
  dtabWord_congr h.dtab h.resets j k

theorem CommandResult.sameDtab (hr : CommandResult s t) : SameDtab s t := by
  cases hr with
  | noEffect | startsEmpty | starts | clears | appendFails | appends => exact ⟨rfl, rfl⟩

theorem AccessResult.sameDtab (hr : AccessResult s t) : SameDtab s t := by
  cases hr with
  | command hc => exact hc.sameDtab
  | ignored | reads | setsFrameOnly | setsBufLen | setsEncFields | writes => exact ⟨rfl, rfl⟩

/-- No action of the host but the reset touches DTAB (R39). -/
theorem HostResult.sameDtab (hr : HostResult s t) (hnoReset : s.host.head? ≠ some .reset) : SameDtab s t := by
  cases hr with
  | access left ha => exact ⟨ha.sameDtab.dtab, ha.sameDtab.resets⟩
  | nothing | waits | waited | busReplies => exact ⟨rfl, rfl⟩
  | resets rest hhost => exact absurd (by rw [hhost]; rfl) hnoReset

/-- The engine writes no DTAB entry but PKT_COUNT's (R39, R176). -/
theorem EngineResult.dtabWord_other (hr : EngineResult s t) {j : Nat} (hj : j ≠ s.pktCount.toNat) (k : Nat) :
    dtabWord t j k = dtabWord s j k := by
  cases hr with
  | disabled => rfl
  | peekFails => exact dtabWord_congr rfl rfl j k
  | frames _ hf => exact hf.keeps.dtab j k hj

/-- Without a run the engine does nothing (R172). -/
theorem EngineResult.eq_of_idle (hr : EngineResult s t) (hidle : s.busy = false) : t = s := by
  cases hr with
  | disabled => rfl
  | peekFails hbusy | frames hbusy => exact absurd (hidle.symm.trans hbusy) Bool.false_ne_true

/-- Settles O50: a host step that is no reset keeps DTAB, and an engine step writes at PKT_COUNT, during a run only. -/
theorem onlyEngineWritesDtab : Obligations.OnlyEngineWritesDtab := by
  intro s t hstep hnoReset
  rcases step_result hstep with ⟨hturn, hhost⟩ | ⟨hturn, hengine⟩
  · have hsame := hhost.sameDtab fun hreset => hnoReset ⟨hturn, hreset⟩
    exact ⟨fun j k _ => hsame.word j k, fun _ => hsame.word⟩
  · refine ⟨fun j k hj => hengine.dtabWord_other hj k, fun hno j k => ?_⟩
    rcases hno with hno | hidle
    · exact absurd hturn hno
    · rw [hengine.eq_of_idle hidle]
      rfl

end Sys2Proof.Machine

namespace Sys2Proof.Machine

/-! ### The host's reads and writes of CSRs and DTAB (R24 to R39, R65, R67, R100) -/

/-- Settles O37: the eleven listed offsets one by one, and every other offset falls through all of `csrRead`'s tests. -/
theorem csrReadReturnsRegister : Obligations.CsrReadReturnsRegister := by
  intro s
  refine ⟨rfl, rfl, rfl, rfl, rfl, rfl, rfl, rfl, rfl, rfl, rfl, fun off hoff => ?_⟩
  have hzero : csrRead off s = 0#32 := by
    simp only [List.mem_cons, List.not_mem_nil, or_false, not_or] at hoff
    simp [csrRead, hoff]
  rw [hostAccess_csrRead, hzero]
  rfl

/-- A CSR write that is no command only stores its field (R100). -/
theorem hostAccess_csrWrite_of_error {off : BitVec 8} {w : Word} {e : DecodeReject}
    (h : decodeCsrWrite off w = .error e) (s : State) :
    hostAccess (.csrWrite off w) s = .next (csrStore off w s) := by
  rw [hostAccess_csrWrite, h]

/-- Which CSR writes are no commands (R100). -/
theorem decodeCsrWrite_error {off : BitVec 8} {w : Word} (hstart : off = 0x00#8 → w.getLsbD 0 = false)
    (hclear : off = 0x20#8 → w.getLsbD 0 = false) (hsize : off ≠ 0x28#8) :
    decodeCsrWrite off w = .error .notACommand := by
  unfold decodeCsrWrite
  split_ifs <;> simp_all

/-- ENC_FIELDS keeps the upper half of what is written (R32). -/
theorem setEncFields_eq_mask (w : Word) (s : State) :
    setEncFields w s = { s with encFields := w &&& 0xFFFF0000#32 } := by
  have hmask : w.extractLsb' 16 16 ++ 0#16 = w &&& 0xFFFF0000#32 := by
    apply BitVec.eq_of_getLsbD_eq
    intro i hi
    rw [BitVec.getLsbD_append, BitVec.getLsbD_extractLsb', BitVec.getLsbD_and]
    interval_cases i <;> simp
  unfold setEncFields
  rw [hmask]

/-- BUF_LEN takes a legal length while no run is in progress (R27). -/
theorem csrStore_bufLen (w : Word) (s : State) :
    csrStore 0x08#8 w s = if s.busy = false ∧ w.toNat ≤ s.params.maxIbuf.toNat then setBufLen w s else s := by
  show (if s.busy = true ∨ s.params.maxIbuf.toNat < w.toNat then s else setBufLen w s) = _
  rw [← ite_not]
  simp only [not_or, Bool.not_eq_true, not_lt]

/-- Offsets without a writable register ignore what is stored (R24). -/
theorem csrStore_of_notListed {off : BitVec 8} (hctrl : off ≠ 0x00#8) (hlen : off ≠ 0x08#8) (hfields : off ≠ 0x24#8)
    (w : Word) (s : State) : csrStore off w s = s := by
  simp [csrStore, hctrl, hlen, hfields]

/-- Settles O38: none of these writes is a command, so each stores what its offset stores. -/
theorem plainCsrWriteStoresField : Obligations.PlainCsrWriteStoresField := by
  intro s w
  refine ⟨fun hbit => ?_, ?_, ?_, fun hbit => ?_, fun off hoff => ?_⟩
  · exact hostAccess_csrWrite_of_error (decodeCsrWrite_error (fun _ => hbit) (fun _ => hbit) (by decide)) s
  · rw [hostAccess_csrWrite_of_error (decodeCsrWrite_error (by simp) (by simp) (by decide)) s, csrStore_bufLen]
    rfl
  · rw [← setEncFields_eq_mask]
    exact hostAccess_csrWrite_of_error (decodeCsrWrite_error (by simp) (by simp) (by decide)) s
  · exact hostAccess_csrWrite_of_error (decodeCsrWrite_error (by simp) (fun _ => hbit) (by decide)) s
  · simp only [List.mem_cons, List.not_mem_nil, or_false, not_or] at hoff
    obtain ⟨hctrl, hlen, hencCtrl, hfields, hsize⟩ := hoff
    rw [hostAccess_csrWrite_of_error
      (decodeCsrWrite_error (fun h => absurd h hctrl) (fun h => absurd h hencCtrl) hsize) s,
      csrStore_of_notListed hctrl hlen hfields]

/-- Word K of entry i stands at 16 i + 4 K (R38, R65). -/
theorem dtabRead_word {s : State} {i k : Nat} (hi : i < dtabDepth s.params) (hk : k < 4) :
    dtabRead (16 * i + 4 * k) s = dtabWord s i k := by
  have haligned : (16 * i + 4 * k) % 4 = 0 := by omega
  have hinside : 16 * i + 4 * k < 16 * dtabDepth s.params := by omega
  have hentry : (16 * i + 4 * k) / 16 = i := by omega
  have hword : (16 * i + 4 * k) / 4 % 4 = k := by omega
  rw [dtabRead, if_pos ⟨haligned, hinside⟩, hentry, hword]

/-- Misaligned offsets and those past the table read 0 (R39, R65). -/
theorem dtabRead_outside {s : State} {off : Nat} (h : off % 4 ≠ 0 ∨ 16 * dtabDepth s.params ≤ off) :
    dtabRead off s = 0#32 :=
  if_neg (by omega)

/-- Settles O41: writes do nothing by the model's access rule, reads by the two lemmas above. -/
theorem hostReadsDtab : Obligations.HostReadsDtab := by
  refine fun s => ⟨fun off w => rfl, fun i k hi hk => ?_, fun off hoff => ?_⟩
  · rw [hostAccess_dtabRead, dtabRead_word hi hk]
    rfl
  · rw [hostAccess_dtabRead, dtabRead_outside hoff]
    rfl

/-! ### Reset (R42, R340) -/

/-- Settles O42. -/
theorem resetValues : Obligations.ResetValues :=
  ⟨rfl, rfl, rfl, rfl, rfl, rfl, rfl, rfl, rfl, rfl, rfl, rfl, rfl⟩

/-- Settles O43: the host's turn performs the reset, which writes every register and empties both memories. -/
theorem resetRestoresRegisters : Obligations.ResetRestoresRegisters := by
  intro s rest hturn hhost
  have hafter : (afterPick s).host = .reset :: rest := hhost
  rw [step_hostTurn hturn, hostStep, hafter]
  rfl

/-! ### A BUF_LEN write after a run (R27, log 12) -/

/-- Program P5, schedule (b), of 95_test_vectors before its third write: a FRAME_ONLY run over one 32-byte Receiver Report
has ended OK, and the host is about to write 8 to BUF_LEN. Of IBUF, the packet's header is listed. -/
def lengthWriteAfterRun : State :=
  { State.reset with
    params := { maxIbuf := 256#32, maxObuf := 64#32, unknownPtCode := .wrongType, fbFormatMap := .doc }
    frameOnly := true
    done := true
    bufLen := 32#32
    offset := 32#32
    pktCount := 1#32
    ibuf := [(0, 0x81#8), (1, 0xC9#8), (2, 0#8), (3, 7#8)]
    dtab := [(0, { hdr := 0x81C90007#32, off := 0#32, len := 32#32, tag := 2#4, padFlag := false, padValid := false,
                   padCount := 0#8 })]
    host := [.access (.csrWrite 0x08#8 8#32)] }

theorem inv_lengthWriteAfterRun : Inv lengthWriteAfterRun := by
  constructor <;> decide

theorem step_lengthWriteAfterRun :
    step lengthWriteAfterRun = .next { lengthWriteAfterRun with bufLen := 8#32, host := [] } := rfl

/-- Settles O55 with `lengthWriteAfterRun`: OFFSET stays 32 while BUF_LEN becomes 8. -/
theorem bufLenWriteCanPassOffset : Obligations.BufLenWriteCanPassOffset :=
  ⟨lengthWriteAfterRun, _, 8#32, inv_lengthWriteAfterRun, rfl, rfl, Nat.le_refl _, .inr ⟨rfl, rfl⟩, rfl,
    step_lengthWriteAfterRun, step_keeps_inv inv_lengthWriteAfterRun step_lengthWriteAfterRun, rfl, by decide⟩

end Sys2Proof.Machine

namespace Sys2Proof.Machine

/-! ### The host's accesses to IBUF and through HOST_MAP (R60, R61, R63, R65) -/

variable {s t : State}

/-- A byte write to IBUF has its effect below MAX_IBUF while no run is in progress (R60). -/
theorem ibufStore_idle {a : Nat} (hidle : s.busy = false) (ha : a < s.params.maxIbuf.toNat) (v : Byte) :
    ibufStore a v s = writeByte a v s :=
  if_pos ⟨hidle, ha⟩

/-- A byte write to IBUF is dropped during a run and past MAX_IBUF (R60). -/
theorem ibufStore_dropped {a : Nat} (h : s.busy = true ∨ s.params.maxIbuf.toNat ≤ a) (v : Byte) :
    ibufStore a v s = s := by
  refine if_neg fun ⟨hidle, ha⟩ => ?_
  rcases h with hbusy | hpast
  · exact Bool.false_ne_true (hidle.symm.trans hbusy)
  · omega

theorem ibufRead_inside {a : Nat} (ha : a < s.params.maxIbuf.toNat) : ibufRead a s = readByte s a :=
  if_pos ha

theorem ibufRead_outside {a : Nat} (ha : s.params.maxIbuf.toNat ≤ a) : ibufRead a s = 0#8 :=
  if_neg (Nat.not_lt.mpr ha)

/-- Settles O40: a write is performed or dropped and a read is inside or outside, by the four lemmas above. -/
theorem hostReadsAndWritesIbuf : Obligations.HostReadsAndWritesIbuf := by
  refine fun s a v => ⟨fun hidle ha => ?_, fun hbusy => ?_, fun ha => ⟨?_, ?_⟩, fun ha => ?_⟩
  · exact ⟨writeByte a v s, by rw [hostAccess_ibufWrite, ibufStore_idle hidle ha], readByte_writeByte_same s a v,
      fun b hb => readByte_writeByte_other s v hb, rfl⟩
  · rw [hostAccess_ibufWrite, ibufStore_dropped (.inl hbusy)]
  · rw [hostAccess_ibufWrite, ibufStore_dropped (.inr ha)]
  · rw [hostAccess_ibufRead, ibufRead_outside ha]
    rfl
  · rw [hostAccess_ibufRead, ibufRead_inside ha]
    rfl

/-- What a read returns does not depend on the scheduler's picks. -/
theorem accessValue_afterPick (a : Access) (s : State) : accessValue a (afterPick s) = accessValue a s := by
  cases a <;> rfl

/-- An access that returns a value has no effect on the block (R67). -/
theorem accessEffect_of_value {a : Access} {v : Word} (hv : accessValue a s = some v) (t : State) :
    accessEffect a t = .next t := by
  cases a with
  | csrRead | ibufRead | dtabRead => rfl
  | csrWrite | ibufWrite | dtabWrite => simp [accessValue] at hv

/-- An access that returns a value gives it to the host. -/
theorem hostAccess_of_value {a : Access} {v : Word} (hv : accessValue a s = some v) :
    hostAccess a s = .next (respond v s) := by
  rw [hostAccess, hv]

/-- Whether an access returns a value does not depend on the state; one that returns none is its effect alone. -/
theorem hostAccess_of_no_value {a : Access} (hv : accessValue a s = none) (t : State) :
    hostAccess a t = accessEffect a t := by
  cases a with
  | csrRead | ibufRead | dtabRead => simp [accessValue] at hv
  | csrWrite | ibufWrite | dtabWrite => rfl

/-- With a bus access next, the host does what HOST_MAP says of it (R61). -/
theorem hostStep_bus {b : BusAccess} {answers : List Word} {rest : List HostAction}
    (hhost : s.host = .bus b answers :: rest) :
    hostStep s = busAccess (Config.hostMap b answers) b answers rest s := by
  rw [hostStep, hhost]

/-- Settles O57: HOST_MAP's three answers one by one, a native access split on whether it returns a value. -/
theorem busAccessFollowsHostMap : Obligations.BusAccessFollowsHostMap := by
  intro s b answers rest hturn hhost
  have hafter : (afterPick s).host = .bus b answers :: rest := hhost
  rw [step_hostTurn hturn, hostStep_bus hafter]
  match Config.hostMap b answers with
  | none => rfl
  | some (.reply pieces) => rfl
  | some (.native a) =>
    simp only [busAccess, accessValue_afterPick]
    cases hv : accessValue a s with
    | none => exact (hostAccess_of_no_value hv _).symm
    | some v => exact ⟨hostAccess_of_value hv, accessEffect_of_value hv _⟩

/-- A bus access goes on unless HOST_MAP leaves it undefined (R61, R70). -/
theorem busAccess_next_or_undefined (m : Option BusStep) (b : BusAccess) (answers : List Word) (rest : List HostAction)
    (s : State) :
    (∃ t, busAccess m b answers rest s = .next t) ∨
      (m = none ∧ busAccess m b answers rest s = .refused (.hostMapUndefined b)) := by
  match m with
  | none => exact .inr ⟨rfl, rfl⟩
  | some (.reply pieces) => exact .inl ⟨_, rfl⟩
  | some (.native a) =>
    obtain ⟨t, ht, -⟩ := accessEffect_result a (setHost (.bus b (answers ++ [(accessValue a s).getD 0#32]) :: rest) s)
    exact .inl ⟨t, ht⟩

/-- A host step goes on unless its action is a bus access that HOST_MAP leaves undefined (R61, R70). -/
theorem hostStep_next_or_undefined (s : State) :
    (∃ t, hostStep s = .next t) ∨
      ∃ b answers, hostStep s = .refused (.hostMapUndefined b) ∧ s.host.head? = some (.bus b answers) ∧
        Config.hostMap b answers = none := by
  match hhost : s.host with
  | [] => exact .inl ⟨s, by rw [hostStep, hhost]⟩
  | .access a :: rest =>
    obtain ⟨t, ht, -⟩ := hostAccess_result a (setHost rest s)
    exact .inl ⟨t, by rw [hostStep, hhost, ← ht]⟩
  | .wait :: rest => exact .inl ⟨_, by rw [hostStep, hhost]⟩
  | .bus b answers :: rest =>
    rw [hostStep_bus hhost]
    rcases busAccess_next_or_undefined (Config.hostMap b answers) b answers rest s with hnext | ⟨hnone, hrefused⟩
    · exact .inl hnext
    · exact .inr ⟨b, answers, hrefused, rfl, hnone⟩
  | .reset :: rest => exact .inl ⟨_, by rw [hostStep, hhost]⟩

/-- Settles O51: the engine's step always goes on, and the host's stops at an undefined bus access only. -/
theorem stepStopsOnlyOnUndefinedBusAccess : Obligations.StepStopsOnlyOnUndefinedBusAccess := by
  intro s
  rcases turn_cases s with ⟨hturn, -⟩ | ⟨hturn, -⟩
  · rw [step_engineTurn hturn]
    obtain ⟨t, ht, -⟩ := engineStep_result (afterPick s)
    exact .inl ⟨t, ht⟩
  · rw [step_hostTurn hturn]
    rcases hostStep_next_or_undefined (afterPick s) with hnext | ⟨b, answers, hrefused, hhead, hnone⟩
    · exact .inl hnext
    · exact .inr ⟨b, answers, hrefused, hturn, hhead, hnone⟩

/-! ### The input of a run in progress (R60, R72, R355) -/

/-- What a run reads is the same: BUF_LEN, FRAME_ONLY and the bytes of IBUF (R72). -/
structure SameInput (s t : State) : Prop where
  bufLen : t.bufLen = s.bufLen
  frameOnly : t.frameOnly = s.frameOnly
  ibuf : ∀ a, readByte t a = readByte s a

theorem SameInput.refl (s : State) : SameInput s s :=
  ⟨rfl, rfl, fun _ => rfl⟩

theorem FrameResult.sameInput (hr : FrameResult s t) : SameInput s t :=
  ⟨hr.keeps.bufLen, hr.keeps.frameOnly, hr.keeps.ibuf⟩

/-- No command touches the input of a run: START is dropped, the others are the encode unit's (R230, R355). -/
theorem CommandResult.sameInput (hr : CommandResult s t) (hbusy : s.busy = true) : SameInput s t := by
  cases hr with
  | noEffect => exact .refl s
  | startsEmpty _ hidle | starts _ hidle => exact absurd (hidle.symm.trans hbusy) Bool.false_ne_true
  | clears | appendFails | appends => exact ⟨rfl, rfl, readByte_congr rfl rfl⟩

/-- No native access touches the input of a run: the writes to CTRL, BUF_LEN and IBUF are dropped (R60, R355). -/
theorem AccessResult.sameInput (hr : AccessResult s t) (hbusy : s.busy = true) : SameInput s t := by
  cases hr with
  | ignored => exact .refl s
  | command hc => exact hc.sameInput hbusy
  | setsFrameOnly _ hidle | setsBufLen _ hidle | writes _ _ hidle =>
    exact absurd (hidle.symm.trans hbusy) Bool.false_ne_true
  | reads | setsEncFields => exact ⟨rfl, rfl, readByte_congr rfl rfl⟩

/-- Of the host's actions only the reset touches the input of a run. -/
theorem HostResult.sameInput (hr : HostResult s t) (hbusy : s.busy = true) (hnoReset : s.host.head? ≠ some .reset) :
    SameInput s t := by
  cases hr with
  | nothing => exact .refl s
  | access left ha =>
    obtain ⟨hbufLen, hframeOnly, hibuf⟩ := ha.sameInput hbusy
    exact ⟨hbufLen, hframeOnly, hibuf⟩
  | waits | waited | busReplies => exact ⟨rfl, rfl, readByte_congr rfl rfl⟩
  | resets rest hhost => exact absurd (by rw [hhost]; rfl) hnoReset

/-- The engine reads its input and never writes it (R40, R72). -/
theorem EngineResult.sameInput (hr : EngineResult s t) : SameInput s t := by
  cases hr with
  | disabled => exact .refl s
  | peekFails => exact ⟨rfl, rfl, readByte_congr rfl rfl⟩
  | frames _ hf => exact hf.sameInput

/-- Settles O49: a step of a run is a host step that is no reset or an engine step, and either keeps the input. -/
theorem runInputIsFrozen : Obligations.RunInputIsFrozen := by
  intro s t hbusy hnoReset hstep
  have hsame : SameInput (afterPick s) t := by
    rcases step_result hstep with ⟨hturn, hhost⟩ | ⟨-, hengine⟩
    · exact hhost.sameInput hbusy fun hreset => hnoReset ⟨hturn, hreset⟩
    · exact hengine.sameInput
  exact ⟨hsame.bufLen, hsame.frameOnly, hsame.ibuf⟩

end Sys2Proof.Machine

namespace Sys2Proof

/-! ### The dispatch table and the encoder undo each other (R90, R97 to R100, R156)

A header instruction stands for one header (`Instr.form`), and the table takes that header back to the instruction
(`Instr.ofHeader`): one lemma each way, then the header codec carries both over to words. -/

/-- A Packet Type is unknown where it is none of the eight that R142 to R153 list (R154). -/
theorem unknownPacketType_iff (pt : BitVec 8) :
    unknownPacketType pt = true ↔ pt ∉ [200#8, 201#8, 202#8, 203#8, 204#8, 205#8, 206#8, 207#8] := by
  simp only [unknownPacketType, Bool.or_eq_true, decide_eq_true_eq, List.mem_cons, List.not_mem_nil, or_false, not_or]
  bv_omega

/-- A format of Packet Type 205 without a class is in none of the accepting rows (R147, R150, R152). -/
theorem tlfbRow_of_unregistered {m : FbFormatMap} {h : Header} (hc : tlfbUnregisteredFmt m h.c = true) :
    tlfbRow m h = .tlfbUnregistered h.v h.p h.c h.l := by
  cases m <;> simp_all [tlfbUnregisteredFmt, tlfbRow]

/-- A format of Packet Type 206 without a class is in none of the accepting rows (R148 to R150, R153). -/
theorem psfbRow_of_unregistered {m : FbFormatMap} {h : Header} (hc : psfbUnregisteredFmt m h.c = true) :
    psfbRow m h = .psfbUnregistered h.v h.p h.c h.l := by
  cases m <;> simp_all [psfbUnregisteredFmt, psfbRow]

/-- The table takes the header of a well-formed instruction back to it: what makes a rejecting row well-formed is that
no accepting row comes before it (R97, R99). -/
theorem ofHeader_of_form {m : FbFormatMap} {i : Instr} {h : Header} (hwf : i.wellFormed m = true)
    (hform : i.form m = .inl h) : Instr.ofHeader m h = i := by
  cases i with
  | start | encClear | encAppend => cases hform
  | sr | rr | sdes | bye | app | tlfbNack | psfbPli | psfbFir | psfbRrr | xr => cases hform; cases m <;> rfl
  | tlfbUnregistered => cases hform; exact tlfbRow_of_unregistered hwf
  | psfbUnregistered => cases hform; exact psfbRow_of_unregistered hwf
  | unknownPt v p c pt l =>
    cases hform
    have hpt := (unknownPacketType_iff pt).mp hwf
    simp only [List.mem_cons, List.not_mem_nil, or_false, not_or] at hpt
    simp [Instr.ofHeader, hpt]

/-- The CSR write of a command performs that command (R100). -/
theorem decodeCsrWrite_of_form {m : FbFormatMap} {i : Instr} {off : BitVec 8} {w : Word}
    (hform : i.form m = .inr (off, w)) : decodeCsrWrite off w = .ok i := by
  cases i with
  | start f => cases hform; cases f <;> rfl
  | encClear | encAppend => cases hform; rfl
  | _ => cases hform

theorem encode_of_header {m : FbFormatMap} {i : Instr} {h : Header} (hform : i.form m = .inl h) :
    encode m i = .header h.pack := by
  rw [encode, hform]

theorem encode_of_command {m : FbFormatMap} {i : Instr} {off : BitVec 8} {w : Word}
    (hform : i.form m = .inr (off, w)) : encode m i = .csrWrite off w := by
  rw [encode, hform]

/-- Settles O1: a header instruction goes through its header word, a command through its CSR write. -/
theorem decodeOfEncodeIsIdentity : Obligations.DecodeOfEncodeIsIdentity := by
  intro m i hwf
  match hform : i.form m with
  | .inl h =>
    rw [encode_of_header hform, decode, decodeHeaderWord, Header.unpack_pack_eq, ofHeader_of_form hwf hform]
  | .inr (off, w) => rw [encode_of_command hform, decode, decodeCsrWrite_of_form hform]

/-- The instruction is a well-formed one that stands for this header. -/
structure IsRowOf (m : FbFormatMap) (h : Header) (i : Instr) : Prop where
  wellFormed : i.wellFormed m = true
  form : i.form m = .inl h

/-- A header is given back by its own fields, its Packet Type and Count by the values they are known to have. -/
theorem inl_header_eq {h : Header} {pt : BitVec 8} {c : BitVec 5} (hpt : h.pt = pt) (hc : h.c = c) :
    (.inl ⟨h.v, h.p, c, pt, h.l⟩ : Header ⊕ (BitVec 8 × Word)) = .inl h := by
  rw [← hpt, ← hc]

theorem tlfbRow_isRowOf (m : FbFormatMap) {h : Header} (hpt : h.pt = 205#8) : IsRowOf m h (tlfbRow m h) := by
  cases m with
  | doc =>
    simp only [tlfbRow]
    split_ifs with hnack
    · exact ⟨rfl, inl_header_eq hpt hnack⟩
    · exact ⟨by simp [Instr.wellFormed, tlfbUnregisteredFmt, hnack], inl_header_eq hpt rfl⟩
  | rfc =>
    simp only [tlfbRow]
    split_ifs with hnack hrrr
    · exact ⟨rfl, inl_header_eq hpt hnack⟩
    · exact ⟨rfl, inl_header_eq hpt hrrr⟩
    · exact ⟨by simp [Instr.wellFormed, tlfbUnregisteredFmt, hnack, hrrr], inl_header_eq hpt rfl⟩

theorem psfbRow_isRowOf (m : FbFormatMap) {h : Header} (hpt : h.pt = 206#8) : IsRowOf m h (psfbRow m h) := by
  cases m with
  | doc =>
    simp only [psfbRow]
    split_ifs with hpli hfir hrrr
    · exact ⟨rfl, inl_header_eq hpt hpli⟩
    · exact ⟨rfl, inl_header_eq hpt hfir⟩
    · exact ⟨rfl, inl_header_eq hpt hrrr⟩
    · exact ⟨by simp [Instr.wellFormed, psfbUnregisteredFmt, hpli, hfir, hrrr], inl_header_eq hpt rfl⟩
  | rfc =>
    simp only [psfbRow]
    split_ifs with hpli hfir
    · exact ⟨rfl, inl_header_eq hpt hpli⟩
    · exact ⟨rfl, inl_header_eq hpt hfir⟩
    · exact ⟨by simp [Instr.wellFormed, psfbUnregisteredFmt, hpli, hfir], inl_header_eq hpt rfl⟩

/-- The table gives every header a well-formed instruction that stands for it (R98, R156). -/
theorem ofHeader_isRowOf (m : FbFormatMap) (h : Header) : IsRowOf m h (Instr.ofHeader m h) := by
  unfold Instr.ofHeader
  split_ifs with hsr hrr hsdes hbye happ htlfb hpsfb hxr
  · exact ⟨rfl, inl_header_eq hsr rfl⟩
  · exact ⟨rfl, inl_header_eq hrr rfl⟩
  · exact ⟨rfl, inl_header_eq hsdes rfl⟩
  · exact ⟨rfl, inl_header_eq hbye rfl⟩
  · exact ⟨rfl, inl_header_eq happ rfl⟩
  · exact tlfbRow_isRowOf m htlfb
  · exact psfbRow_isRowOf m hpsfb
  · exact ⟨rfl, inl_header_eq hxr rfl⟩
  · have hunknown : unknownPacketType h.pt = true := by
      rw [unknownPacketType_iff]
      simp [hsr, hrr, hsdes, hbye, happ, htlfb, hpsfb, hxr]
    exact ⟨hunknown, rfl⟩

/-- Settles O2: the table's instruction for the word's fields encodes to the word, and an instruction that encodes to it
is, by O1, what the word decodes to. -/
theorem everyHeaderWordHasOneInstruction : Obligations.EveryHeaderWordHasOneInstruction := by
  intro m w
  obtain ⟨hwf, hform⟩ := ofHeader_isRowOf m (Header.unpack w)
  refine ⟨hwf, ?_, fun i hi hencode => ?_⟩
  · rw [decodeHeaderWord, encode_of_header hform, Header.pack_unpack_eq]
  · have hdecode := decodeOfEncodeIsIdentity m i hi
    rw [hencode, decode, Except.ok.injEq] at hdecode
    exact hdecode.symm

/-! ### The fields of a header in its four bytes (R62, R90, R120) -/

/-- A concatenation is a weighted sum of its parts. -/
theorem toNat_append_eq_add {m n : Nat} (x : BitVec m) (y : BitVec n) :
    (x ++ y).toNat = x.toNat * 2 ^ n + y.toNat := by
  rw [BitVec.toNat_append, ← Nat.shiftLeft_add_eq_or_of_lt y.isLt, Nat.shiftLeft_eq]

/-- A big-endian word is its bytes' weighted sum (R8, R62). -/
theorem be32_toNat (b0 b1 b2 b3 : Byte) :
    (be32 b0 b1 b2 b3).toNat = b0.toNat * 2 ^ 24 + b1.toNat * 2 ^ 16 + b2.toNat * 2 ^ 8 + b3.toNat := by
  show BitVec.toNat (w := 8 + 8 + 8 + 8) (b0 ++ b1 ++ b2 ++ b3) = _
  simp only [toNat_append_eq_add]
  omega

/-- With four bytes available the peek unpacks them (R120, R122). -/
theorem hdrDecode_bytes (b0 b1 b2 b3 : Byte) (r : List Byte) {n : Nat} (hn : 4 ≤ n) :
    hdrDecode (b0 :: b1 :: b2 :: b3 :: r) n = .ok (Header.unpack (be32 b0 b1 b2 b3)) :=
  if_neg (Nat.not_lt.mpr hn)

/-- Settles O5: each field is a run of the word's bits, so a quotient and remainder of the bytes' weighted sum. -/
theorem headerFieldsComeFromTheirBytes : Obligations.HeaderFieldsComeFromTheirBytes := by
  intro b0 b1 b2 b3 r n hn
  have h0 := b0.isLt
  have h1 := b1.isLt
  have h2 := b2.isLt
  have h3 := b3.isLt
  refine ⟨_, hdrDecode_bytes b0 b1 b2 b3 r hn, ?_, ?_, ?_, BitVec.eq_of_toNat_eq ?_, ?_⟩ <;>
    · simp only [Header.unpack, BitVec.extractLsb'_toNat, be32_toNat, Nat.shiftRight_eq_div_pow]
      omega

end Sys2Proof

namespace Sys2Proof.Machine

variable {s : State}

/-! ### The host's next action (R100, R101, R350) -/

/-- With a native access next, the host performs it and uses it up (R350). -/
theorem hostStep_access {a : Access} {rest : List HostAction} (hhost : s.host = .access a :: rest) :
    hostStep s = hostAccess a (setHost rest s) := by
  rw [hostStep, hhost]

/-- With WAIT next, the host reads STATUS and keeps the WAIT while BUSY = 1 (R101). -/
theorem hostStep_wait {rest : List HostAction} (hhost : s.host = .wait :: rest) :
    hostStep s = .next (respond (statusWord s) (if s.busy then s else setHost rest s)) := by
  rw [hostStep, hhost]

/-- Settles O12: the host's turn performs the access, which for a CSR write that decodes is the command's meaning. -/
theorem stepRunsHostAccess : Obligations.StepRunsHostAccess := by
  intro s a rest hturn hhost
  have hstep : step s = hostAccess a (setHost rest (afterPick s)) :=
    (step_hostTurn hturn).trans (hostStep_access hhost)
  refine ⟨hstep, fun off w i ha hdecode => ?_⟩
  rw [decode] at hdecode
  rw [hstep, ha, hostAccess_csrWrite, hdecode]
  rfl

/-- Settles O15: one poll with BUSY = 1, which leaves the actions as they are, and one with BUSY = 0, which ends the
WAIT. -/
theorem waitPollsStatus : Obligations.WaitPollsStatus := by
  intro s rest hturn hhost
  have hstep : step s = .next (respond (statusWord s) (if s.busy then afterPick s else setHost rest (afterPick s))) :=
    (step_hostTurn hturn).trans (hostStep_wait hhost)
  rw [hstep]
  cases s.busy <;> rfl

end Sys2Proof.Machine

namespace Sys2Proof.Machine

/-! ### Every step keeps the accepted packets end to end (R95, R96, R140, R176)

An operation either leaves DTAB and the counters alone, or leaves no packet, or accepts the packet at OFFSET. -/

variable {s t : State}

/-- Entry `i` is `d`, and lies where `Tiled` has it. -/
structure TiledEntry (s : State) (i : Nat) (d : Descriptor) : Prop where
  listed : Cells.lookup s.dtab i = some d
  length : d.len.toNat = (Header.unpack d.hdr).declaredLength
  tag : 1 ≤ d.tag.toNat ∧ d.tag.toNat ≤ 10
  first : i = 0 → d.off = 0#32
  last : i + 1 = s.pktCount.toNat → d.off + d.len = s.offset
  adjoins : ∀ e, i + 1 < s.pktCount.toNat → Cells.lookup s.dtab (i + 1) = some e → e.off = d.off + d.len

theorem tiled_iff :
    Tiled s ↔ (s.pktCount = 0#32 → s.err = .ok → s.offset = 0#32) ∧
      ∀ i, i < s.pktCount.toNat → ∃ d, TiledEntry s i d := by
  refine and_congr_right fun _ => forall₂_congr fun i _ => exists_congr fun d => ⟨?_, ?_⟩
  · rintro ⟨hlisted, hlength, htag, hfirst, hlast, hadjoins⟩
    exact ⟨hlisted, hlength, htag, hfirst, hlast, hadjoins⟩
  · rintro ⟨hlisted, hlength, htag, hfirst, hlast, hadjoins⟩
    exact ⟨hlisted, hlength, htag, hfirst, hlast, hadjoins⟩

/-- `Tiled` speaks of DTAB, PKT_COUNT, OFFSET and ERR only. -/
theorem Tiled.congr (h : Tiled s) (hdtab : t.dtab = s.dtab) (hcount : t.pktCount = s.pktCount)
    (hoffset : t.offset = s.offset) (herr : t.err = s.err) : Tiled t := by
  unfold Tiled
  rw [hdtab, hcount, hoffset, herr]
  exact h

/-- No packet lies in the buffer where PKT_COUNT and OFFSET are 0 (R170, R340). -/
theorem tiled_of_cleared (hcount : s.pktCount = 0#32) (hoffset : s.offset = 0#32) : Tiled s :=
  ⟨fun _ _ => hoffset, fun i hi => by simp [hcount] at hi⟩

/-- A failed run reports no packet (R303). -/
theorem tiled_finish_error {e : ErrCode} (he : e ≠ .ok) (off : Word) (s : State) : Tiled (finish e off s) :=
  ⟨fun _ herr => absurd herr he, fun i hi => by simp [he] at hi⟩

/-- The packet accepted at OFFSET is the entry PKT_COUNT, which ends at the new OFFSET; it starts at 0 where it is the
first (R95, R96, R140, R176). -/
theorem tiledEntry_recordPacket_new (k : PacketClass) (hd : Header) (hfirst : s.pktCount = 0#32 → s.offset = 0#32)
    (hcount : (s.pktCount + 1#32).toNat = s.pktCount.toNat + 1) :
    TiledEntry (recordPacket (descriptorOf k hd s) hd.declaredLength s) s.pktCount.toNat (descriptorOf k hd s) where
  listed := Cells.lookup_insert_same _ _ _
  length := by
    obtain ⟨-, hmax, -⟩ := hd.declaredLength_range
    simp only [descriptorOf, Header.unpack_pack_eq, BitVec.toNat_ofNat]
    omega
  tag := classTag_range k
  first := fun hzero => hfirst (BitVec.eq_of_toNat_eq hzero)
  last := fun _ => rfl
  adjoins := fun e hlt => by rw [recordPacket_pktCount, hcount] at hlt; omega

/-- An entry accepted before stays in its place, and the packet accepted at OFFSET adjoins the last of them (R96). -/
theorem TiledEntry.recordPacket {i : Nat} {d : Descriptor} (h : TiledEntry s i d) (hi : i < s.pktCount.toNat)
    {new : Descriptor} (n : Nat) (hnew : new.off = s.offset)
    (hcount : (s.pktCount + 1#32).toNat = s.pktCount.toNat + 1) : TiledEntry (recordPacket new n s) i d where
  listed := (Cells.lookup_insert_other _ _ (by omega)).trans h.listed
  length := h.length
  tag := h.tag
  first := h.first
  last := fun hlast => by rw [recordPacket_pktCount, hcount] at hlast; omega
  adjoins := fun e _ he => by
    rw [recordPacket_dtab] at he
    by_cases hlast : i + 1 = s.pktCount.toNat
    · rw [hlast, Cells.lookup_insert_same] at he
      cases he
      exact hnew.trans (h.last hlast).symm
    · rw [Cells.lookup_insert_other _ _ hlast] at he
      exact h.adjoins e (by omega) he

/-- A run's packet that fits is laid down after the packets before it (R96, R176). -/
theorem Tiled.recordPacket (h : Tiled s) (hinv : Inv s) (hbusy : s.busy = true) (k : PacketClass) {hd : Header}
    (hfit : hd.declaredLength ≤ remaining s) :
    Tiled (recordPacket (descriptorOf k hd s) hd.declaredLength s) := by
  obtain ⟨hfirst, hentries⟩ := tiled_iff.mp h
  obtain ⟨-, herr⟩ := hinv.running hbusy
  obtain ⟨-, hcount, -, -⟩ := hinv.packetFits hbusy hfit
  refine tiled_iff.mpr ⟨fun hzero => ?_, fun i hi => ?_⟩
  · rw [recordPacket_pktCount] at hzero
    simp [hzero] at hcount
  · rw [recordPacket_pktCount, hcount] at hi
    rcases Nat.lt_succ_iff_lt_or_eq.mp hi with hold | rfl
    · obtain ⟨d, hentry⟩ := hentries i hold
      exact ⟨d, hentry.recordPacket hold _ rfl hcount⟩
    · exact ⟨_, tiledEntry_recordPacket_new k hd (fun hzero => hfirst hzero herr) hcount⟩

theorem Tiled.acceptPacket (h : Tiled s) (hinv : Inv s) (hbusy : s.busy = true) (k : PacketClass) {hd : Header}
    (hfit : hd.declaredLength ≤ remaining s) : Tiled (accept k hd s) := by
  obtain ⟨-, herr⟩ := hinv.running hbusy
  have hrecorded := h.recordPacket hinv hbusy k hfit
  rcases accept_cases k hd s with ⟨-, e⟩ | ⟨-, e⟩ <;> rw [e]
  · exact hrecorded.congr rfl rfl rfl herr.symm
  · exact hrecorded

theorem FrameResult.tiled (hr : FrameResult s t) (h : Tiled s) (hinv : Inv s) (hbusy : s.busy = true) : Tiled t := by
  cases hr with
  | fails e he => exact tiled_finish_error he.1 _ s
  | accepts k hd hfit => exact h.acceptPacket hinv hbusy k hfit

theorem CommandResult.tiled (hr : CommandResult s t) (h : Tiled s) : Tiled t := by
  cases hr with
  | noEffect => exact h
  | startsEmpty f => exact tiled_finish_error (by simp) _ _
  | starts f => exact tiled_of_cleared rfl rfl
  | clears | appendFails | appends => exact h.congr rfl rfl rfl rfl

theorem AccessResult.tiled (hr : AccessResult s t) (h : Tiled s) : Tiled t := by
  cases hr with
  | command hc => exact hc.tiled h
  | ignored | reads | setsFrameOnly | setsBufLen | setsEncFields | writes => exact h.congr rfl rfl rfl rfl

theorem HostResult.tiled (hr : HostResult s t) (h : Tiled s) : Tiled t := by
  cases hr with
  | access left ha => exact ha.tiled (h.congr rfl rfl rfl rfl)
  | nothing | waits | waited | busReplies => exact h.congr rfl rfl rfl rfl
  | resets => exact tiled_of_cleared rfl rfl

theorem EngineResult.tiled (hr : EngineResult s t) (h : Tiled s) (hinv : Inv s) : Tiled t := by
  cases hr with
  | disabled => exact h
  | peekFails => exact tiled_finish_error (by simp) _ s
  | frames hbusy hf => exact hf.tiled h hinv hbusy

/-- Settles O47: a step is a host step or an engine step, and each thing either can leave is tiled. -/
theorem stepKeepsDescriptorsTiled : Obligations.StepKeepsDescriptorsTiled := by
  intro s t hinv htiled hstep
  have hpicked : Tiled (afterPick s) := htiled.congr rfl rfl rfl rfl
  rcases step_result hstep with ⟨-, hhost⟩ | ⟨-, hengine⟩
  · exact hhost.tiled hpicked
  · exact hengine.tiled hpicked hinv.afterPick

end Sys2Proof.Machine

namespace Sys2Proof

/-! ### HDR_DECODE and HDR_ENCODE (R120 to R125) -/

/-- With fewer than four bytes available the peek fails (R120, R123). -/
theorem hdrDecode_error_of_lt {n : Nat} (b : List Byte) (hn : n < 4) : hdrDecode b n = .error .invalidHeader :=
  if_pos hn

/-- Reading the bytes of a word gives the fields of that word (R120, R124). -/
theorem hdrDecode_wordBytes (w : Word) : hdrDecode (wordBytes w) 4 = .ok (Header.unpack w) := by
  rw [wordBytes, hdrDecode_bytes _ _ _ _ [] (le_refl 4), be32_bytes_eq]

/-- A word's bytes are its base-256 digits, most significant first (R62). -/
theorem wordBytes_map_toNat (w : Word) :
    (wordBytes w).map BitVec.toNat =
      [w.toNat / 2 ^ 24, w.toNat / 2 ^ 16 % 2 ^ 8, w.toNat / 2 ^ 8 % 2 ^ 8, w.toNat % 2 ^ 8] := by
  have htop : w.toNat / 2 ^ 24 < 2 ^ 8 := by have := w.isLt; omega
  simp only [wordBytes, List.map_cons, List.map_nil, BitVec.extractLsb'_toNat, Nat.shiftRight_eq_div_pow,
    Nat.mod_eq_of_lt htop, pow_zero, Nat.div_one]

/-- A header word is its fields' weighted sum (R124). -/
theorem Header.pack_toNat (h : Header) :
    h.pack.toNat =
      h.v.toNat * 2 ^ 30 + h.p.toNat * 2 ^ 29 + h.c.toNat * 2 ^ 24 + h.pt.toNat * 2 ^ 16 + h.l.toNat := by
  show BitVec.toNat (w := 2 + 1 + 5 + 8 + 16) (h.v ++ h.p ++ h.c ++ h.pt ++ h.l) = _
  simp only [toNat_append_eq_add]
  omega

/-- Settles O3: the encoder's bytes read back as the packed word, and unpacking undoes packing. -/
theorem headerCodecRoundTrip : Obligations.HeaderCodecRoundTrip := by
  intro h
  rw [hdrEncode, hdrDecode_wordBytes, Header.unpack_pack_eq]

/-- Settles O6: the packed word is the weighted sum, and the bytes of any word are its base-256 digits. -/
theorem headerEncodeIsWeightedSum : Obligations.HeaderEncodeIsWeightedSum :=
  fun h => ⟨h.pack_toNat, wordBytes_map_toNat h.pack⟩

/-- Settles O4: with four bytes available the peek is a function of those four alone, and otherwise it fails. -/
theorem headerPeekReadsFourBytes : Obligations.HeaderPeekReadsFourBytes := by
  refine ⟨fun b0 b1 b2 b3 r r' n n' hn hn' => ?_, fun b n hn => hdrDecode_error_of_lt b hn⟩
  rw [hdrDecode_bytes b0 b1 b2 b3 r hn, hdrDecode_bytes b0 b1 b2 b3 r' hn']

end Sys2Proof

namespace Sys2Proof.Machine

/-! ### CLASSIFY and the rows of the dispatch table (R141 to R156) -/

/-- The tags and errors of the rows that take a (Type, Count) pair (R142 to R154). -/
def takenResults (m : FbFormatMap) (u : UnknownPtCode) (pt c : Nat) : List (Except ErrCode (BitVec 4)) :=
  ((dispatchRows m u pt c).filter (fun r => r.1)).map (fun r => r.2)

/-- Of the rows for Packet Type 205 one takes each format, with CLASSIFY's result (R147, R150, R152). -/
theorem takenResults_tlfb (m : FbFormatMap) (u : UnknownPtCode) (c : BitVec 5) :
    takenResults m u 205 c.toNat = [(classifyTlfb m c).map classTag] := by
  cases m with
  | doc =>
    simp only [classifyTlfb]
    split_ifs with hnack
    · rw [hnack]; rfl
    · have hnot1 : c.toNat ≠ 1 := by bv_omega
      simp [takenResults, dispatchRows, Except.map, hnot1]
  | rfc =>
    simp only [classifyTlfb]
    split_ifs with hnack hrrr
    · rw [hnack]; rfl
    · rw [hrrr]; rfl
    · have hnot1 : c.toNat ≠ 1 := by bv_omega
      have hnot5 : c.toNat ≠ 5 := by bv_omega
      simp [takenResults, dispatchRows, Except.map, hnot1, hnot5]

/-- Of the rows for Packet Type 206 one takes each format, with CLASSIFY's result (R148 to R150, R153). -/
theorem takenResults_psfb (m : FbFormatMap) (u : UnknownPtCode) (c : BitVec 5) :
    takenResults m u 206 c.toNat = [(classifyPsfb m c).map classTag] := by
  cases m with
  | doc =>
    simp only [classifyPsfb]
    split_ifs with hpli hfir hrrr
    · rw [hpli]; rfl
    · rw [hfir]; rfl
    · rw [hrrr]; rfl
    · have hnot1 : c.toNat ≠ 1 := by bv_omega
      have hnot2 : c.toNat ≠ 2 := by bv_omega
      have hnot4 : c.toNat ≠ 4 := by bv_omega
      simp [takenResults, dispatchRows, Except.map, hnot1, hnot2, hnot4]
  | rfc =>
    simp only [classifyPsfb]
    split_ifs with hpli hfir
    · rw [hpli]; rfl
    · rw [hfir]; rfl
    · have hnot1 : c.toNat ≠ 1 := by bv_omega
      have hnot4 : c.toNat ≠ 4 := by bv_omega
      simp [takenResults, dispatchRows, Except.map, hnot1, hnot4]

/-- A Packet Type outside 200 to 207 is taken by the last row alone (R154). -/
theorem takenResults_unknown (m : FbFormatMap) (u : UnknownPtCode) {pt : Nat} (c : Nat) (hpt : pt < 200 ∨ 207 < pt) :
    takenResults m u pt c = [.error (unknownPtErr u)] := by
  have hunlisted : ∀ n, 200 ≤ n → n ≤ 207 → (pt == n) = false := fun n _ _ => beq_false_of_ne (by omega)
  cases m <;> cases u <;> simp [takenResults, dispatchRows, unknownPtErr, hunlisted, hpt]

/-- Settles O7: the Packet Types one by one as CLASSIFY tests them. Those that leave Count free are in one row each, by
evaluation; 205, 206 and the unknown ones are the three lemmas above. -/
theorem classifyTakesExactlyOneRow : Obligations.ClassifyTakesExactlyOneRow := by
  intro m u pt c
  show takenResults m u pt.toNat c.toNat = [(classify m u pt c).map classTag]
  unfold classify
  split_ifs with hsr hrr hsdes hbye happ htlfb hpsfb hxr
  · rw [hsr]; cases m <;> rfl
  · rw [hrr]; cases m <;> rfl
  · rw [hsdes]; cases m <;> rfl
  · rw [hbye]; cases m <;> rfl
  · rw [happ]; cases m <;> rfl
  · rw [htlfb]; exact takenResults_tlfb m u c
  · rw [hpsfb]; exact takenResults_psfb m u c
  · rw [hxr]; cases m <;> rfl
  · exact takenResults_unknown m u c.toNat (by bv_omega)

/-- Settles O8: for each of the six types CLASSIFY returns before it comes to the feedback branches, which alone read
Count. -/
theorem classifyIgnoresCountOfReports : Obligations.ClassifyIgnoresCountOfReports := by
  intro m u pt c c' hpt
  simp only [List.mem_cons, List.not_mem_nil, or_false] at hpt
  rcases hpt with rfl | rfl | rfl | rfl | rfl | rfl <;> rfl

/-- Settles O10: the decoder evaluates each of the ten words to its instruction. -/
theorem exampleWordsDecode : Obligations.ExampleWordsDecode :=
  ⟨rfl, rfl, rfl, rfl, rfl, rfl, rfl, rfl, rfl, rfl⟩

end Sys2Proof.Machine

namespace Sys2Proof.Machine

/-! ### What the accepting and the rejecting rows do (R142 to R154, R172, R176, R303) -/

variable {s : State} {i : Instr} {h : Header}

/-- An instruction of an accepting row frames its header under the class with the row's tag (R142 to R151, R172). -/
theorem exec_of_acceptedTag {tag : BitVec 4} (hi : i.headerUnder s.params.fbFormatMap = some h)
    (htag : i.acceptedTag = some tag) : ∃ k, exec i s = .next (frameAs k h s) ∧ classTag k = tag := by
  cases i with
  | sr | rr | sdes | bye | app | tlfbNack | psfbPli | psfbFir | psfbRrr | xr =>
    cases hi
    cases htag
    exact ⟨_, rfl, rfl⟩
  | tlfbUnregistered | psfbUnregistered | unknownPt | start | encClear | encAppend => cases htag

/-- An instruction of a rejecting row rejects its header with the row's error (R152 to R154, R174). -/
theorem exec_of_rejection {e : ErrCode} (hi : i.headerUnder s.params.fbFormatMap = some h)
    (he : i.rejection s.params.unknownPtCode = some e) : exec i s = .next (frameReject e h s) := by
  cases i with
  | tlfbUnregistered | psfbUnregistered | unknownPt =>
    cases hi
    cases he
    rfl
  | sr | rr | sdes | bye | app | tlfbNack | psfbPli | psfbFir | psfbRrr | xr | start | encClear | encAppend =>
    cases he

/-- No row rejects with OK (R152 to R154). -/
theorem rejection_ne_ok {u : UnknownPtCode} {e : ErrCode} (he : i.rejection u = some e) : e ≠ .ok := by
  rintro rfl
  cases i with
  | unknownPt => cases u <;> cases he
  | _ => cases he

/-- The engine's stop primitive at OFFSET leaves what R303 says of a decode error. -/
theorem finish_eq_failedAt {e : ErrCode} (he : e ≠ .ok) (s : State) : finish e s.offset s = failedAt e s := by
  simp [finish, failedAt, he]

/-- Settles O19: the instruction rejects its header, and the bounds check before that passes. -/
theorem rejectedClassFinishesRun : Obligations.RejectedClassFinishesRun := by
  intro s i h e hi he hfit
  rw [exec_of_rejection hi he, frameReject, if_neg (Nat.not_lt.mpr hfit), finish_eq_failedAt (rejection_ne_ok he)]

/-- What the padding detector reports of a header with the P bit (R210, R211, R213). -/
theorem padDetect_of_p {p : BitVec 1} (hp : p = 1#1) (dl : Nat) (last : Byte) :
    padDetect p dl last = ⟨true, last, decide (1 ≤ last.toNat ∧ last.toNat ≤ dl - 4)⟩ := by
  simp [padDetect, hp]

/-- Without the P bit it reports nothing (R212). -/
theorem padDetect_of_not_p {p : BitVec 1} (hp : p ≠ 1#1) (dl : Nat) (last : Byte) :
    padDetect p dl last = ⟨false, 0#8, false⟩ := by
  simp [padDetect, hp]

theorem ofBool_decide_eq_ite (p : Prop) [Decidable p] : BitVec.ofBool (decide p) = if p then 1#1 else 0#1 := by
  split_ifs with hp <;> simp [hp]

/-- Without padding D_INFO is the tag (R38). -/
theorem infoWord_bits_without_padding : ∀ tag : BitVec 4,
    0#8 ++ 0#8 ++ 0#6 ++ BitVec.ofBool false ++ BitVec.ofBool false ++ 0#4 ++ tag = 0#28 ++ tag := by decide

/-- The D_INFO word of the packet at OFFSET (R38, R210 to R213). -/
theorem infoWord_descriptorOf (k : PacketClass) (h : Header) (s : State) :
    infoWord (descriptorOf k h s) = expectedInfo h (lastByte h.declaredLength s) (classTag k) := by
  by_cases hp : h.p = 1#1
  · rw [infoWord, descriptorOf, expectedInfo, if_pos hp, padDetect_of_p hp, ← ofBool_decide_eq_ite]
    rfl
  · rw [infoWord, descriptorOf, expectedInfo, if_neg hp, padDetect_of_not_p hp]
    exact infoWord_bits_without_padding (classTag k)

/-- Entry PKT_COUNT holds the packet's descriptor after acceptance (R176). -/
theorem dtabWord_accept (k : PacketClass) (h : Header) (s : State) (j : Nat) :
    dtabWord (accept k h s) s.pktCount.toNat j = descriptorWord (descriptorOf k h s) j := by
  obtain ⟨hdtab, -⟩ := accept_fields k h s
  simp [dtabWord, hdtab, Cells.lookup_insert_same]

/-- Acceptance leaves what R176 says, in any state. -/
theorem accepted_accept (k : PacketClass) (h : Header) (s : State) : Accepted h (classTag k) s (accept k h s) := by
  obtain ⟨-, hcount, hoffset, -⟩ := accept_fields k h s
  have hcontrol := accept_control k h s
  exact
    { hdr := dtabWord_accept k h s 0
      off := dtabWord_accept k h s 1
      len := dtabWord_accept k h s 2
      info := (dtabWord_accept k h s 3).trans (infoWord_descriptorOf k h s)
      count := hcount
      next := hoffset
      ends := fun hend => by simpa [hend] using hcontrol
      goesOn := fun hmore => by simpa [hmore] using hcontrol }

/-- A packet that fits and has the verdict OK is accepted (R172, R176). -/
theorem frameAs_of_ok {k : PacketClass} (hfit : h.declaredLength ≤ remaining s)
    (hverdict : verdict k h.declaredLength s = .ok) : frameAs k h s = accept k h s := by
  rw [frameAs, if_neg (Nat.not_lt.mpr hfit), hverdict]

/-- Settles O17: with FRAME_ONLY = 1 the verdict is OK whatever the class, so the packet is accepted. -/
theorem frameOnlyRunAcceptsPacket : Obligations.FrameOnlyRunAcceptsPacket := by
  intro s i h tag hi htag hframeOnly hfit
  obtain ⟨k, hexec, rfl⟩ := exec_of_acceptedTag hi htag
  have hverdict : verdict k h.declaredLength s = .ok := if_pos hframeOnly
  rw [hexec, frameAs_of_ok hfit hverdict]
  exact ⟨_, rfl, accepted_accept k h s⟩

end Sys2Proof.Machine

namespace Sys2Proof.Machine

/-! ### A header instruction is FRAME_STEP after CLASSIFY (R141, R172, R174) -/

variable {s : State} {i : Instr} {h : Header}

/-- The rest of FRAME_STEP for a header that CLASSIFY has answered for (R172, R174). -/
def frameClassified (r : Except ErrCode PacketClass) (h : Header) (s : State) : State :=
  match r with
  | .ok k => frameAs k h s
  | .error e => frameReject e h s

theorem classify_firCode (m : FbFormatMap) (u : UnknownPtCode) :
    classify m u (firCode m).1 (firCode m).2 = .ok .psfbFir := by
  cases m <;> rfl

theorem classify_rrrCode (m : FbFormatMap) (u : UnknownPtCode) :
    classify m u (rrrCode m).1 (rrrCode m).2 = .ok .psfbRrr := by
  cases m <;> rfl

/-- CLASSIFY rejects a format of Packet Type 205 without a class (R152). -/
theorem classifyTlfb_of_unregistered {m : FbFormatMap} {c : BitVec 5} (hc : tlfbUnregisteredFmt m c = true) :
    classifyTlfb m c = .error .wrongType := by
  cases m <;> simp_all [tlfbUnregisteredFmt, classifyTlfb]

/-- CLASSIFY rejects a format of Packet Type 206 without a class (R153). -/
theorem classifyPsfb_of_unregistered {m : FbFormatMap} {c : BitVec 5} (hc : psfbUnregisteredFmt m c = true) :
    classifyPsfb m c = .error .wrongType := by
  cases m <;> simp_all [psfbUnregisteredFmt, classifyPsfb]

/-- CLASSIFY rejects a Packet Type outside 200 to 207 (R154). -/
theorem classify_of_unknown {pt : BitVec 8} (hpt : unknownPacketType pt = true) (m : FbFormatMap) (u : UnknownPtCode)
    (c : BitVec 5) : classify m u pt c = .error (unknownPtErr u) := by
  have hunlisted := (unknownPacketType_iff pt).mp hpt
  simp only [List.mem_cons, List.not_mem_nil, or_false, not_or] at hunlisted
  simp [classify, hunlisted]

/-- CLASSIFY rejects with an error (R152 to R154). -/
theorem classify_error_ne_ok {m : FbFormatMap} {u : UnknownPtCode} {pt : BitVec 8} {c : BitVec 5} {e : ErrCode}
    (he : classify m u pt c = .error e) : e ≠ .ok := by
  rintro rfl
  unfold classify at he
  split_ifs at he
  · cases m <;> simp only [classifyTlfb] at he <;> split_ifs at he <;> cases he
  · cases m <;> simp only [classifyPsfb] at he <;> split_ifs at he <;> cases he
  · cases u <;> cases he

/-- A well-formed header instruction does what FRAME_STEP does with CLASSIFY's answer for its header. -/
theorem exec_of_form (hwf : i.wellFormed s.params.fbFormatMap = true)
    (hform : i.form s.params.fbFormatMap = .inl h) :
    exec i s = .next (frameClassified (classify s.params.fbFormatMap s.params.unknownPtCode h.pt h.c) h s) := by
  cases i with
  | start | encClear | encAppend => cases hform
  | sr | rr | sdes | bye | app | xr => cases hform; rfl
  | tlfbNack | psfbPli => cases hform; cases s.params.fbFormatMap <;> rfl
  | psfbFir => cases hform; rw [classify_firCode]; rfl
  | psfbRrr => cases hform; rw [classify_rrrCode]; rfl
  | tlfbUnregistered v p c l =>
    cases hform
    have hclass : classify s.params.fbFormatMap s.params.unknownPtCode 205#8 c = .error .wrongType :=
      classifyTlfb_of_unregistered hwf
    rw [hclass]
    rfl
  | psfbUnregistered v p c l =>
    cases hform
    have hclass : classify s.params.fbFormatMap s.params.unknownPtCode 206#8 c = .error .wrongType :=
      classifyPsfb_of_unregistered hwf
    rw [hclass]
    rfl
  | unknownPt => cases hform; rw [classify_of_unknown hwf]; rfl

theorem exec_decodeHeaderWord (s : State) (w : Word) :
    exec (decodeHeaderWord s.params.fbFormatMap w) s =
      .next (frameClassified (classify s.params.fbFormatMap s.params.unknownPtCode (Header.unpack w).pt
        (Header.unpack w).c) (Header.unpack w) s) := by
  obtain ⟨hwf, hform⟩ := ofHeader_isRowOf s.params.fbFormatMap (Header.unpack w)
  exact exec_of_form hwf hform

/-- Settles O9: the row the word decodes to is a well-formed instruction that stands for the word's header. -/
theorem execFollowsClassify : Obligations.ExecFollowsClassify :=
  exec_decodeHeaderWord

/-- Every instruction that stands for a header frames it under some answer of CLASSIFY (R97, R172). -/
theorem exec_of_headerUnder (hi : i.headerUnder s.params.fbFormatMap = some h) :
    ∃ r, exec i s = .next (frameClassified r h s) := by
  cases i with
  | sr | rr | sdes | bye | app | tlfbNack | psfbPli | psfbFir | psfbRrr | xr => cases hi; exact ⟨.ok _, rfl⟩
  | tlfbUnregistered | psfbUnregistered | unknownPt => cases hi; exact ⟨.error _, rfl⟩
  | start | encClear | encAppend => cases hi

/-- The bounds check comes first, whatever CLASSIFY answers (R173, R304). -/
theorem frameClassified_of_truncated (hlong : remaining s < h.declaredLength) (r : Except ErrCode PacketClass) :
    frameClassified r h s = failedAt .packetTooShort s := by
  rw [← finish_eq_failedAt (by decide)]
  cases r with
  | ok k => exact if_pos hlong
  | error e => exact if_pos hlong

/-- A rejected header that fits fails with its error (R174, R303). -/
theorem frameClassified_of_rejected {e : ErrCode} (he : e ≠ .ok)
    (hfit : h.declaredLength ≤ remaining s) : frameClassified (.error e) h s = failedAt e s := by
  rw [← finish_eq_failedAt he]
  exact if_neg (Nat.not_lt.mpr hfit)

/-- Settles O16: a header instruction begins with the bounds check. -/
theorem truncatedPacketFails : Obligations.TruncatedPacketFails := by
  intro s i h hi hlong
  obtain ⟨r, hexec⟩ := exec_of_headerUnder hi
  rw [hexec, frameClassified_of_truncated hlong]

/-- A packet that fits and has an error verdict fails with it (R172, R303). -/
theorem frameAs_of_not_ok {k : PacketClass} (hfit : h.declaredLength ≤ remaining s)
    (hverdict : verdict k h.declaredLength s ≠ .ok) :
    frameAs k h s = failedAt (verdict k h.declaredLength s) s := by
  rcases frameAs_cases k h s with ⟨hlong, -⟩ | ⟨-, hok, -⟩ | ⟨-, -, e⟩
  · exact absurd hlong (Nat.not_lt.mpr hfit)
  · exact absurd hok hverdict
  · rw [e, finish_eq_failedAt hverdict]

/-- With FRAME_ONLY = 0 the verdict is TD's on the packet's window (R172, R180). -/
theorem verdict_of_not_frameOnly (hframeOnly : s.frameOnly = false) (k : PacketClass) (dl : Nat) :
    verdict k dl s = tdVerdict k (memRead s s.offset.toNat dl) := by
  rw [verdict, hframeOnly]
  rfl

/-- No two classes share a tag (R140). -/
theorem classTag_injective : Function.Injective classTag := by
  intro k k' htag
  cases k <;> cases k' <;> cases htag <;> rfl

/-- Settles O18: the row's class is the one with the tag, and its verdict is TD's. -/
theorem typeDecoderDecidesAcceptance : Obligations.TypeDecoderDecidesAcceptance := by
  intro s i h k hi htag hframeOnly hfit
  obtain ⟨k', hexec, hk⟩ := exec_of_acceptedTag hi htag
  rw [classTag_injective hk] at hexec
  refine ⟨_, hexec, ?_⟩
  rw [← verdict_of_not_frameOnly hframeOnly]
  split_ifs with hok
  · rw [frameAs_of_ok hfit hok]
    exact accepted_accept k h s
  · exact frameAs_of_not_ok hfit hok

end Sys2Proof.Machine

namespace Sys2Proof.Machine

/-! ### The contract of the per-type decoder (R180 to R186) -/

variable {k : PacketClass} {win : List Byte}

theorem tdVerdict_of_firBad (hfir : tdFirBad k win = true) : tdVerdict k win = .badLength :=
  if_pos hfir

/-- A bad FCI is a bad section (R182, R183). -/
theorem tdSectionBad_of_firBad (hfir : tdFirBad k win = true) : tdSectionBad k win = true := by
  rw [tdFirBad, Bool.and_eq_true] at hfir
  exact hfir.2

/-- What R183 finds is the verdict, unless the type mismatches too and WrongType comes first (R183, R185). -/
theorem tdVerdict_of_lengthError {e : ErrCode} (hfir : tdFirBad k win = false) (he : tdLengthError k win = some e) :
    tdVerdict k win = e ∨ (tdTypeMatches k win = false ∧ tdVerdict k win = .wrongType) := by
  rcases tdVerdict_cases k win with ⟨hbad, -⟩ | ⟨-, hmismatch, hwrong⟩ | ⟨-, hlength⟩ | ⟨-, -, hnone, -⟩
  · simp [hfir] at hbad
  · exact .inr ⟨hmismatch, hwrong⟩
  · rw [he, Option.some.injEq] at hlength
    exact .inl hlength.symm
  · simp [he] at hnone

/-- A window of right length and type, and with room for a Name where it is an APP's, gets the verdict on its body. -/
theorem tdVerdict_of_lengthError_none (hfir : tdFirBad k win = false) (hlength : tdLengthError k win = none)
    (hname : tdNameShort k win = false) :
    tdVerdict k win = if tdTypeMatches k win then tdBodyVerdict k win else .wrongType := by
  rcases tdVerdict_cases k win with ⟨hbad, -⟩ | ⟨-, hmismatch, hwrong⟩ | ⟨-, hsome⟩ | ⟨-, hmatch, -, hrest⟩
  · simp [hfir] at hbad
  · simp [hmismatch, hwrong]
  · simp [hlength] at hsome
  · simpa [hname, hmatch] using hrest

/-- When a section's bytes are right (R183). -/
theorem tdSectionBad_eq_false_iff :
    tdSectionBad k win = false ↔
      tdStride k = 0 ∨ (tdSection k win % tdStride k = 0 ∧ (tdMandatory k = true → tdStride k ≤ tdSection k win)) := by
  rw [← Bool.not_eq_true, tdSectionBad_iff]
  simp only [not_and_or, not_or, not_not, not_lt, imp_iff_not_or, ne_eq]

/-- A window shorter than the header and the minimum body (R182, R183). -/
theorem tdVerdict_of_short (hshort : win.length < 4 + tdMinimum k) :
    tdVerdict k win = .packetTooShort ∨ (tdTypeMatches k win = false ∧ tdVerdict k win = .wrongType) ∨
      (tdFirBad k win = true ∧ tdVerdict k win = .badLength) := by
  cases hfir : tdFirBad k win with
  | true => exact .inr (.inr ⟨rfl, tdVerdict_of_firBad hfir⟩)
  | false =>
    rcases tdVerdict_of_lengthError hfir (if_pos hshort) with hv | hv
    · exact .inl hv
    · exact .inr (.inl hv)

/-- A window with a bad variable-length section (R183). -/
theorem tdVerdict_of_sectionBad (hbad : tdSectionBad k win = true) :
    tdVerdict k win = .badLength ∨ (win.length < 4 + tdMinimum k ∧ tdVerdict k win = .packetTooShort) ∨
      (tdTypeMatches k win = false ∧ tdVerdict k win = .wrongType) := by
  cases hfir : tdFirBad k win with
  | true => exact .inl (tdVerdict_of_firBad hfir)
  | false =>
    rcases tdLengthError_cases k win with ⟨hshort, he⟩ | ⟨-, -, he⟩ | ⟨-, hgood, -⟩
    · rcases tdVerdict_of_lengthError hfir he with hv | hv
      · exact .inr (.inl ⟨hshort, hv⟩)
      · exact .inr (.inr hv)
    · rcases tdVerdict_of_lengthError hfir he with hv | hv
      · exact .inl hv
      · exact .inr (.inr hv)
    · simp [hbad] at hgood

/-- A window whose type mismatches (R185). -/
theorem tdVerdict_of_mismatch (hmismatch : tdTypeMatches k win = false) :
    tdVerdict k win = .wrongType ∨ (win.length < 4 + tdMinimum k ∧ tdVerdict k win = .packetTooShort) ∨
      (tdSectionBad k win = true ∧ tdVerdict k win = .badLength) := by
  rcases tdVerdict_cases k win with ⟨hfir, hv⟩ | ⟨-, -, hv⟩ | ⟨-, hlength⟩ | ⟨-, hmatch, -⟩
  · exact .inr (.inr ⟨tdSectionBad_of_firBad hfir, hv⟩)
  · exact .inl hv
  · rcases tdLengthError_cases k win with ⟨hshort, he⟩ | ⟨-, hbad, he⟩ | ⟨-, -, he⟩ <;> rw [hlength] at he
    · exact .inr (.inl ⟨hshort, Option.some.inj he⟩)
    · exact .inr (.inr ⟨hbad, Option.some.inj he⟩)
    · cases he
  · simp [hmismatch] at hmatch

/-- WrongType needs a mismatch or an APP window too short for its Name (R185, R186). -/
theorem tdVerdict_wrongType (hv : tdVerdict k win = .wrongType) :
    tdTypeMatches k win = false ∨ tdNameShort k win = true := by
  rcases tdVerdict_cases k win with ⟨-, e⟩ | ⟨-, hmismatch, -⟩ | ⟨-, e⟩ | ⟨-, -, -, ⟨hname, -⟩ | ⟨-, e⟩⟩
  · simp [hv] at e
  · exact .inl hmismatch
  · rcases tdLengthError_cases k win with ⟨-, c⟩ | ⟨-, -, c⟩ | ⟨-, -, c⟩ <;> simp [hv, c] at e
  · exact .inr hname
  · rcases tdBodyVerdict_codes k win with c | c | c | c <;> simp [hv, c] at e

theorem tdNameShort_iff : tdNameShort k win = true ↔ k = .app ∧ win.length < 12 := by
  rw [tdNameShort, Bool.and_eq_true, decide_eq_true_eq, decide_eq_true_eq]

/-- An APP window too short for its Name is not OK (R186). -/
theorem tdVerdict_of_nameShort (hname : tdNameShort k win = true) : tdVerdict k win ≠ .ok := by
  intro hv
  rcases tdVerdict_cases k win with ⟨-, e⟩ | ⟨-, -, e⟩ | ⟨-, e⟩ | ⟨-, -, -, ⟨-, e⟩ | ⟨hfull, -⟩⟩
  · simp [hv] at e
  · simp [hv] at e
  · rcases tdLengthError_cases k win with ⟨-, c⟩ | ⟨-, -, c⟩ | ⟨-, -, c⟩ <;> simp [hv, c] at e
  · rcases tdErrorCode_codes (Config.tdAppError win) with c | c | c | c <;> simp [hv, c] at e
  · simp [hname] at hfull

/-- Settles O23: the strides by definition, then one lemma a clause. -/
theorem typeDecoderKeepsContract : Obligations.TypeDecoderKeepsContract := by
  refine ⟨⟨rfl, rfl, rfl⟩, fun k win => ⟨tdVerdict_codes k win, ?_, ?_, ?_, ?_, ?_, ?_⟩⟩
  · exact fun hk hssrc hfci => tdVerdict_of_firBad ((tdFirBad_iff k win).mpr ⟨hk, hssrc, hfci⟩)
  · intro hshort
    simpa only [tdFirBad_iff, and_assoc] using tdVerdict_of_short hshort
  · cases hbad : tdSectionBad k win with
    | true => exact .inr (.inr (tdVerdict_of_sectionBad hbad))
    | false => exact (tdSectionBad_eq_false_iff.mp hbad).imp_right .inl
  · cases hmatch : tdTypeMatches k win with
    | true => exact .inl rfl
    | false => exact .inr (tdVerdict_of_mismatch hmatch)
  · by_cases hv : tdVerdict k win = .wrongType
    · exact .inr ((tdVerdict_wrongType hv).imp_right tdNameShort_iff.mp)
    · exact .inl hv
  · exact fun hk hshort => tdVerdict_of_nameShort (tdNameShort_iff.mpr ⟨hk, hshort⟩)

/-! ### What TD's contract makes of a packet (R182, R186) -/

variable {s : State} {h : Header}

/-- A FIR packet with a bad FCI that fits fails BadLength before anything else is looked at (R182). -/
theorem frameAs_of_badFci (hframeOnly : s.frameOnly = false) (hssrc : 12 ≤ h.declaredLength)
    (hfci : h.declaredLength - 12 = 0 ∨ (h.declaredLength - 12) % 8 ≠ 0) (hfit : h.declaredLength ≤ remaining s) :
    frameAs .psfbFir h s = failedAt .badLength s := by
  have hverdict : verdict .psfbFir h.declaredLength s = .badLength := by
    rw [verdict_of_not_frameOnly hframeOnly]
    exact tdVerdict_of_firBad ((tdFirBad_iff _ _).mpr ⟨rfl, by rwa [memRead_length], by rwa [memRead_length]⟩)
  rw [frameAs_of_not_ok hfit (by simp [hverdict]), hverdict]

/-- Settles O21: the instruction frames a FIR packet with a bad FCI. -/
theorem firWithBadFciFails : Obligations.FirWithBadFciFails := by
  intro s v p l hframeOnly hssrc hfci hfit
  exact congrArg _ (frameAs_of_badFci (h := ⟨v, p, _, _, l⟩) hframeOnly hssrc hfci hfit)

/-- An APP packet too short for its Name does not get the verdict OK (R186). -/
theorem verdict_of_nameShort (hframeOnly : s.frameOnly = false) (hshort : h.declaredLength < 12) :
    verdict .app h.declaredLength s ≠ .ok := by
  rw [verdict_of_not_frameOnly hframeOnly]
  exact tdVerdict_of_nameShort (tdNameShort_iff.mpr ⟨rfl, by rwa [memRead_length]⟩)

/-- Settles O22: the verdict is one of R180's but not OK, so the packet fails with it. -/
theorem appWithoutNameFails : Obligations.AppWithoutNameFails := by
  intro s v p c l hframeOnly hshort hfit
  have hverdict := verdict_of_nameShort (h := ⟨v, p, c, 204#8, l⟩) hframeOnly hshort
  exact ⟨_, (verdict_codes _ _ _).resolve_left hverdict,
    congrArg _ (frameAs_of_not_ok (h := ⟨v, p, c, 204#8, l⟩) hfit hverdict)⟩

/-! ### Zero-entry packets (R184) -/

/-- The required body holds the minimum body, so a packet of just that length has no wrong length (R183, R184). -/
theorem tdLengthError_of_fixed {f : Nat} (hf : tdFixedLength k = some f) (hlen : win.length = 4 + f) :
    tdLengthError k win = none := by
  have hmin : tdMinimum k ≤ f := by
    cases k with
    | sr | rr => cases hf; exact le_max_right _ _
    | bye => exact Nat.zero_le _
    | sdes | app | tlfbNack | psfbPli | psfbFir | psfbRrr | xr => cases hf
  have hgood : tdSectionBad k win = false := by
    cases k with
    | sr | rr | bye => cases hf; simp [tdSectionBad, tdMandatory, tdSection, tdFixedLength, hlen]
    | sdes | app | tlfbNack | psfbPli | psfbFir | psfbRrr | xr => cases hf
  rw [tdLengthError, if_neg (by omega), if_neg (by simp [hgood])]

/-- The classes R184 speaks of are neither FIR nor APP. -/
theorem class_of_fixedLength {f : Nat} (hf : tdFixedLength k = some f) : k ≠ .psfbFir ∧ k ≠ .app := by
  constructor <;> rintro rfl <;> cases hf

/-- A plain packet without entries is WrongType where its type mismatches, and otherwise gets the verdict on its
required body (R184, R185). -/
theorem tdVerdict_zeroEntry {f : Nat} (hf : tdFixedLength k = some f) (hlen : win.length = 4 + f)
    (hplain : tdPlainEntries k win = some 0) :
    tdVerdict k win = if tdTypeMatches k win then tdFixedVerdict k win else .wrongType := by
  obtain ⟨hnotFir, hnotApp⟩ := class_of_fixedLength hf
  have hbody : tdBodyVerdict k win = tdFixedVerdict k win := by rw [tdBodyVerdict, hplain]
  rw [tdVerdict_of_lengthError_none (by simp [tdFirBad, hnotFir]) (tdLengthError_of_fixed hf hlen)
    (by simp [tdNameShort, hnotApp]), hbody]

@[simp] theorem hdrEncode_length (h : Header) : (hdrEncode h).length = 4 := rfl

/-- R184 for one class: where the type matches, a zero-entry packet is OK, or entries do not make it OK. -/
theorem zeroEntry_contract {pt : BitVec 8} {f : Nat} (hf : tdFixedLength k = some f) (l : BitVec 16)
    {body : List Byte} (hbody : body.length = f) :
    if tdTypeMatches k (hdrEncode ⟨2#2, 0#1, 0#5, pt, l⟩ ++ body) then
      tdVerdict k (hdrEncode ⟨2#2, 0#1, 0#5, pt, l⟩ ++ body) = .ok ∨
      ∀ (c : BitVec 5) (l' : BitVec 16) (entries : List Byte), entries.length = tdEntrySize k * c.toNat →
        tdVerdict k (hdrEncode ⟨2#2, 0#1, c, pt, l'⟩ ++ (body ++ entries)) ≠ .ok
    else tdVerdict k (hdrEncode ⟨2#2, 0#1, 0#5, pt, l⟩ ++ body) = .wrongType := by
  have hplain : tdPlainEntries k (hdrEncode ⟨2#2, 0#1, 0#5, pt, l⟩ ++ body) = some 0 :=
    tdPlainEntries_header hf rfl rfl (by simp [hbody])
  have hfixed : tdFixedVerdict k (hdrEncode ⟨2#2, 0#1, 0#5, pt, l⟩ ++ body) =
      tdMatchedCode (Config.tdFixed k body) := by
    simpa using tdFixedVerdict_header (more := []) hf hbody
  rw [tdVerdict_zeroEntry hf (by simp [hbody]) hplain, hfixed]
  split_ifs with hmatch
  · refine or_iff_not_imp_left.mpr fun hrejected c l' entries hentries hok => hrejected ?_
    rw [← tdFixedVerdict_header hf hbody]
    exact tdVerdict_plain (tdPlainEntries_header hf rfl rfl (by simp [hbody, hentries])) hok
  · rfl

/-- Settles O56: the three classes are those with a required body, and what they expect does not depend on Count. -/
theorem zeroEntryPacketsAreValid : Obligations.ZeroEntryPacketsAreValid := by
  constructor
  · intro k pt required entry hk l body hbody
    simp only [List.mem_cons, List.not_mem_nil, or_false, Prod.mk.injEq] at hk
    rcases hk with ⟨rfl, rfl, rfl, rfl⟩ | ⟨rfl, rfl, rfl, rfl⟩ | ⟨rfl, rfl, rfl, rfl⟩
    · exact zeroEntry_contract rfl l hbody
    · have hrr : tdFixedLength .rr = some 4 := by simp [tdFixedLength, tdMinimum]
      exact zeroEntry_contract hrr l hbody
    · exact zeroEntry_contract rfl l hbody
  · intro k h h' body body' hk hpt
    rw [tdTypeMatches_header, tdTypeMatches_header, hpt]
    simp only [List.mem_cons, List.not_mem_nil, or_false] at hk
    rcases hk with rfl | rfl | rfl <;> rfl

end Sys2Proof.Machine

namespace Sys2Proof.Machine

/-! ### The engine's step on the bytes at OFFSET (R171, R172) -/

variable {s t : State}

/-- The word the four bytes at OFFSET hold (R8, R90). -/
def wordAtOffset (s : State) : Word :=
  be32 (readByte s s.offset.toNat) (readByte s (s.offset.toNat + 1)) (readByte s (s.offset.toNat + 2))
    (readByte s (s.offset.toNat + 3))

/-- With four bytes left the peek finds the instruction of the word at OFFSET (R172). -/
theorem fetch_of_four (hfour : 4 ≤ remaining s) :
    fetch s = .ok (decodeHeaderWord s.params.fbFormatMap (wordAtOffset s)) := by
  have hpeek : hdrDecode (memRead s s.offset.toNat 4) (remaining s) = .ok (Header.unpack (wordAtOffset s)) :=
    hdrDecode_bytes _ _ _ _ [] hfour
  rw [fetch, decodeBytes, Nat.min_eq_right hfour, hpeek]
  rfl

/-- With fewer than four bytes left it finds none (R171). -/
theorem fetch_of_short (hshort : remaining s < 4) : fetch s = .error .invalidHeader := by
  rw [fetch, decodeBytes, hdrDecode_error_of_lt _ hshort]

theorem engineStep_of_four (hbusy : s.busy = true) (hfour : 4 ≤ remaining s) :
    engineStep s = exec (decodeHeaderWord s.params.fbFormatMap (wordAtOffset s)) s := by
  rw [engineStep, if_pos hbusy, fetch_of_four hfour]

theorem engineStep_of_short (hbusy : s.busy = true) (hshort : remaining s < 4) :
    engineStep s = .next (failedAt .invalidHeader s) := by
  rw [engineStep, if_pos hbusy, fetch_of_short hshort, ← finish_eq_failedAt (by decide)]

/-- Settles O11: the bytes at OFFSET are the same once the pick is used up, and every word decodes to a well-formed
instruction. -/
theorem stepRunsHeaderAtOffset : Obligations.StepRunsHeaderAtOffset := by
  intro s hturn hbusy hfour
  obtain ⟨hwf, -, -⟩ := everyHeaderWordHasOneInstruction s.params.fbFormatMap (wordAtOffset s)
  exact ⟨_, rfl, hwf, (step_engineTurn hturn).trans (engineStep_of_four (s := afterPick s) hbusy hfour)⟩

/-- Settles O13: on the engine's turn the step is the engine's, and its peek fails. -/
theorem peekBelowFourBytesFails : Obligations.PeekBelowFourBytesFails := by
  intro s hturn hbusy hshort
  exact (step_engineTurn hturn).trans (engineStep_of_short (s := afterPick s) hbusy hshort)

/-! ### START (R170) -/

theorem startRun_of_empty (f : Bool) (hempty : s.bufLen = 0#32) :
    startRun f s = finish .invalidHeader 0#32 (clearRun f s) :=
  if_pos hempty

theorem startRun_of_nonempty (f : Bool) (hnonempty : s.bufLen ≠ 0#32) : startRun f s = setBusy (clearRun f s) :=
  if_neg hnonempty

theorem exec_start_of_busy (f : Bool) (hbusy : s.busy = true) : exec (.start f) s = .next s :=
  congrArg _ (if_pos hbusy)

theorem exec_start_of_idle (f : Bool) (hidle : s.busy = false) : exec (.start f) s = .next (startRun f s) :=
  congrArg _ (if_neg (by simp [hidle]))

/-- Settles O27: START by BUSY and BUF_LEN; the write of CTRL decodes to it. -/
theorem startBeginsRunOrFinishes : Obligations.StartBeginsRunOrFinishes := by
  refine ⟨fun s f => ?_, fun s w hstart => ?_⟩
  · split_ifs with hbusy hempty
    · exact exec_start_of_busy f hbusy
    · rw [exec_start_of_idle f (by simpa using hbusy), startRun_of_empty f hempty]
      rfl
    · rw [exec_start_of_idle f (by simpa using hbusy), startRun_of_nonempty f hempty]
      rfl
  · have hdecode : decodeCsrWrite 0x00#8 w = .ok (.start (w.getLsbD 1)) := if_pos hstart
    rw [hostAccess_csrWrite, hdecode]

/-! ### A run makes progress and ends (R175, R178, R179) -/

/-- Acceptance of a run's packet ends the run, or goes on at least four bytes further (R175, R176). -/
theorem accept_progress (h : Inv s) (hbusy : s.busy = true) (k : PacketClass) {hd : Header}
    (hfit : hd.declaredLength ≤ remaining s) :
    ((accept k hd s).busy = false ∧ (accept k hd s).done = true) ∨
      ((accept k hd s).busy = true ∧ s.offset.toNat + 4 ≤ (accept k hd s).offset.toNat ∧
        (accept k hd s).pktCount = s.pktCount + 1#32) := by
  rcases accept_control k hd s with ⟨-, hover, hdone, -⟩ | ⟨-, hgoesOn, -⟩
  · exact .inl ⟨hover, hdone⟩
  · obtain ⟨-, hcount, hoffset, -⟩ := accept_fields k hd s
    obtain ⟨hend, -, -, -⟩ := h.packetFits hbusy hfit
    obtain ⟨hmin, -, -⟩ := hd.declaredLength_range
    exact .inr ⟨hgoesOn.trans hbusy, by rw [hoffset, hend]; omega, hcount⟩

/-- An engine step of a run ends it, or consumes at least four bytes (R175, R178, R179). -/
theorem EngineResult.progress (hr : EngineResult s t) (h : Inv s) (hbusy : s.busy = true) :
    (t.busy = false ∧ t.done = true) ∨
      (t.busy = true ∧ s.offset.toNat + 4 ≤ t.offset.toNat ∧ t.pktCount = s.pktCount + 1#32) := by
  cases hr with
  | disabled hidle => simp [hidle] at hbusy
  | peekFails => exact .inl ⟨rfl, rfl⟩
  | frames _ hf =>
    cases hf with
    | fails => exact .inl ⟨rfl, rfl⟩
    | accepts k hd hfit => exact accept_progress h hbusy k hfit

/-- Settles O52: on the engine's turn the step is the engine's, which makes progress. -/
theorem engineStepMakesProgress : Obligations.EngineStepMakesProgress := by
  intro s t hinv hturn hbusy hstep
  obtain ⟨t', hstep', hresult⟩ := engineStep_result (afterPick s)
  rw [step_engineTurn hturn, hstep', Host.Outcome.next.injEq] at hstep
  rw [hstep] at hresult
  exact (hresult.progress hinv.afterPick hbusy).imp_left And.left

/-- An engine step of a run has the frame of a FRAME_STEP (R39, R40, R230). -/
theorem EngineResult.keeps (hr : EngineResult s t) (hbusy : s.busy = true) : FrameKeeps s t := by
  cases hr with
  | disabled hidle => simp [hidle] at hbusy
  | peekFails => exact (FrameResult.fails _ (isFramingError_invalidHeader _)).keeps
  | frames _ hf => exact hf.keeps

/-- A run the host leaves alone, under the default schedule (log 2). -/
structure LeftAlone (s : State) : Prop where
  host : s.host = []
  sched : s.sched = []

theorem LeftAlone.of_sameWorld (h : LeftAlone s) (hworld : SameWorld s t) : LeftAlone t :=
  ⟨hworld.host.trans h.host, hworld.sched.trans h.sched⟩

/-- Without picks none is used up. -/
theorem LeftAlone.afterPick_eq (h : LeftAlone s) : afterPick s = s := by
  have htail : s.sched.tail = s.sched := by rw [h.sched]; rfl
  rw [afterPick, htail]

/-- The default schedule gives a run's step to the engine (R351). -/
theorem LeftAlone.step_of_busy (h : LeftAlone s) (hbusy : s.busy = true) : step s = engineStep s := by
  rw [step_engineTurn (.inr ⟨h.sched, hbusy⟩), h.afterPick_eq]

/-- With no run and no action of the host the block holds its state (R313). -/
theorem LeftAlone.step_of_idle (h : LeftAlone s) (hidle : s.busy = false) : step s = .next s := by
  rw [step_hostTurn (.inr ⟨h.sched, hidle⟩), h.afterPick_eq, hostStep, h.host]

theorem run_succ_of_next (M : Host.Core) {s t : M.State} {n : Nat} (hstep : M.step s = .next t) :
    M.run (n + 1) s = M.run n t := by
  rw [Host.Core.run, hstep]

theorem run_succ {n : Nat} (hstep : step s = .next t) : Host.Core.run core (n + 1) s = Host.Core.run core n t :=
  run_succ_of_next core hstep

theorem LeftAlone.run_of_idle (h : LeftAlone s) (hidle : s.busy = false) (n : Nat) :
    Host.Core.run core n s = .next s := by
  induction n with
  | zero => rfl
  | succ n ih => rw [run_succ (h.step_of_idle hidle), ih]

/-- A run that has fewer than 4 n bytes left ends within n steps, whatever they hold (R178). -/
theorem run_ends (n : Nat) : ∀ {s : State}, Inv s → LeftAlone s → s.busy = true → remaining s < 4 * n →
    ∃ t, Host.Core.run core n s = .next t ∧ t.busy = false ∧ t.done = true := by
  induction n with
  | zero => intro s _ _ _ hleft; exact absurd hleft (Nat.not_lt_zero _)
  | succ n ih =>
    intro s hinv halone hbusy hleft
    obtain ⟨t, hstep, hresult⟩ := engineStep_result s
    have hkeeps := hresult.keeps hbusy
    have haloneAfter := halone.of_sameWorld hkeeps.world
    rw [run_succ ((halone.step_of_busy hbusy).trans hstep)]
    rcases hresult.progress hinv hbusy with ⟨hover, hdone⟩ | ⟨hgoesOn, hoffset, -⟩
    · exact ⟨t, haloneAfter.run_of_idle hover n, hover, hdone⟩
    · have hinvAfter := hresult.inv hinv
      obtain ⟨hlt, -⟩ := hinvAfter.running hgoesOn
      refine ih hinvAfter haloneAfter hgoesOn ?_
      unfold remaining at hleft ⊢
      rw [hkeeps.bufLen] at hlt ⊢
      omega

/-- Settles O53: no more than BUF_LEN bytes are left, and each step but the last consumes four. -/
theorem runEndsWithinBound : Obligations.RunEndsWithinBound := by
  intro s hinv hbusy hhost hsched
  have hleft : remaining s < 4 * (s.bufLen.toNat / 4 + 1) := by unfold remaining; omega
  exact run_ends _ hinv ⟨hhost, hsched⟩ hbusy hleft

end Sys2Proof.Machine

namespace Sys2Proof.Machine

/-! ### One round of DECODE_ALL's loop (R189) -/

section DecodeAllRound

variable {p : Params} {frameOnly : Bool} {buf : List Byte} {fuel o : Nat} {out : List Descriptor}

theorem decodeAllFrom_of_short (hshort : buf.length - o < 4) :
    decodeAllFrom p frameOnly buf (fuel + 1) o out = .error (.invalidHeader, o) :=
  if_pos hshort

variable {hd : Header} (hhd : headerAt buf o = hd)
include hhd

theorem decodeAllFrom_of_truncated (hfour : 4 ≤ buf.length - o) (hlong : buf.length - o < hd.declaredLength) :
    decodeAllFrom p frameOnly buf (fuel + 1) o out = .error (.packetTooShort, o) := by
  subst hhd
  exact (if_neg (Nat.not_lt.mpr hfour)).trans (if_pos hlong)

variable (hfit : hd.declaredLength ≤ buf.length - o)
include hfit

/-- With the declared bytes there, the round goes on to CLASSIFY and the verdict. -/
theorem decodeAllFrom_of_rejected {e : ErrCode}
    (hclass : classify p.fbFormatMap p.unknownPtCode hd.pt hd.c = .error e) :
    decodeAllFrom p frameOnly buf (fuel + 1) o out = .error (e, o) := by
  obtain ⟨hmin, -, -⟩ := hd.declaredLength_range
  subst hhd
  rw [decodeAllFrom, if_neg (by omega), if_neg (Nat.not_lt.mpr hfit), hclass]

variable {k : PacketClass} (hclass : classify p.fbFormatMap p.unknownPtCode hd.pt hd.c = .ok k)
include hclass

theorem decodeAllFrom_of_not_ok {e : ErrCode}
    (hverdict : (if frameOnly then ErrCode.ok else tdVerdict k ((buf.drop o).take hd.declaredLength)) = e)
    (he : e ≠ .ok) : decodeAllFrom p frameOnly buf (fuel + 1) o out = .error (e, o) := by
  obtain ⟨hmin, -, -⟩ := hd.declaredLength_range
  subst hhd
  rw [decodeAllFrom, if_neg (by omega), if_neg (Nat.not_lt.mpr hfit), hclass]
  dsimp only
  rw [hverdict]
  cases e with
  | ok => exact absurd rfl he
  | _ => rfl

theorem decodeAllFrom_of_ok
    (hverdict : (if frameOnly then ErrCode.ok else tdVerdict k ((buf.drop o).take hd.declaredLength)) = .ok) :
    decodeAllFrom p frameOnly buf (fuel + 1) o out =
      if o + hd.declaredLength = buf.length then .ok (out ++ [decodedPacket k buf o])
      else decodeAllFrom p frameOnly buf fuel (o + hd.declaredLength) (out ++ [decodedPacket k buf o]) := by
  obtain ⟨hmin, -, -⟩ := hd.declaredLength_range
  subst hhd
  rw [decodeAllFrom, if_neg (by omega), if_neg (Nat.not_lt.mpr hfit), hclass]
  dsimp only
  rw [hverdict]

end DecodeAllRound

/-! ### A run computes DECODE_ALL (R189)

The engine's step and a round of DECODE_ALL's loop read the same header at OFFSET and come to the same answer
(`Decoding.round`); an induction on the number of steps, which is also the loop's fuel, then compares the run with the
loop. -/

variable {s t : State} {out : List Descriptor}

/-- The buffer of a run: the first BUF_LEN bytes of IBUF (R27, R189). -/
def runBuffer (s : State) : List Byte :=
  memRead s 0 s.bufLen.toNat

theorem runBuffer_length (s : State) : (runBuffer s).length = s.bufLen.toNat :=
  memRead_length s 0 _

theorem runBuffer_getD {a : Nat} (ha : a < s.bufLen.toNat) : (runBuffer s).getD a 0#8 = readByte s a := by
  rw [List.getD_eq_getElem?_getD, runBuffer, memRead_getElem s 0 _ a ha, Nat.zero_add]
  rfl

/-- A slice of the bytes read from an address on is what a read of the slice gives (R9). -/
theorem memRead_slice (s : State) {o n len : Nat} (hfit : o + n ≤ len) :
    ((memRead s 0 len).drop o).take n = memRead s o n := by
  apply List.ext_getElem?
  intro i
  by_cases hi : i < n
  · rw [List.getElem?_take_of_lt hi, List.getElem?_drop, memRead_getElem s 0 len (o + i) (by omega),
      memRead_getElem s o n i hi, Nat.zero_add]
  · rw [List.getElem?_eq_none (by simp; omega), List.getElem?_eq_none (by simp; omega)]

/-- The header DECODE_ALL reads at OFFSET is the one the engine's peek finds (R172, R189). -/
theorem headerAt_runBuffer (hfour : 4 ≤ remaining s) :
    headerAt (runBuffer s) s.offset.toNat = Header.unpack (wordAtOffset s) := by
  unfold remaining at hfour
  simp only [headerAt, wordAtOffset]
  rw [runBuffer_getD (by omega), runBuffer_getD (by omega), runBuffer_getD (by omega), runBuffer_getD (by omega)]

/-- DECODE_ALL's element for the packet at OFFSET is the descriptor the engine writes (R38, R189). -/
theorem decodedPacket_runBuffer (k : PacketClass) {hd : Header} (hhd : headerAt (runBuffer s) s.offset.toNat = hd)
    (hfit : hd.declaredLength ≤ remaining s) :
    decodedPacket k (runBuffer s) s.offset.toNat = descriptorOf k hd s := by
  obtain ⟨hmin, -, -⟩ := hd.declaredLength_range
  unfold remaining at hfit
  have hlast : (runBuffer s).getD (s.offset.toNat + hd.declaredLength - 1) 0#8 = lastByte hd.declaredLength s :=
    runBuffer_getD (by omega)
  simp only [decodedPacket, descriptorOf, hhd, hlast, BitVec.ofNat_toNat, BitVec.setWidth_eq]

/-- The loop's verdict on the packet at OFFSET is the engine's (R180, R189). -/
theorem verdict_runBuffer (k : PacketClass) {hd : Header} (hfit : hd.declaredLength ≤ remaining s) :
    (if s.frameOnly then ErrCode.ok else
      tdVerdict k (((runBuffer s).drop s.offset.toNat).take hd.declaredLength)) = verdict k hd.declaredLength s := by
  obtain ⟨hmin, -, -⟩ := hd.declaredLength_range
  unfold remaining at hfit
  rw [runBuffer, memRead_slice s (by omega)]
  rfl

/-- DECODE_ALL's loop at the point a run has reached: OFFSET and the packets decoded so far. -/
def decodeRest (s : State) (fuel : Nat) (out : List Descriptor) : Except (ErrCode × Nat) (List Descriptor) :=
  decodeAllFrom s.params s.frameOnly (runBuffer s) fuel s.offset.toNat out

/-- A run the host leaves alone, between two packets: `out` are the packets accepted so far, of four bytes or more. -/
structure Decoding (s : State) (out : List Descriptor) : Prop where
  busy : s.busy = true
  alone : LeftAlone s
  below : s.offset.toNat < s.bufLen.toNat
  count : s.pktCount.toNat = out.length
  fits : 4 * out.length ≤ s.offset.toNat
  listed : ∀ i d, out[i]? = some d → Cells.lookup s.dtab i = some d

/-- The run is over with this result of DECODE_ALL (R189). -/
def EndsWith (t : State) (r : Except (ErrCode × Nat) (List Descriptor)) : Prop :=
  t.busy = false ∧ t.done = true ∧
  match r with
  | .ok out =>
    t.err = .ok ∧ t.errOffset = 0#32 ∧ t.pktCount.toNat = out.length ∧
      ∀ i d, out[i]? = some d → Cells.lookup t.dtab i = some d
  | .error (e, o) => t.err = e ∧ t.errOffset.toNat = o ∧ t.pktCount = 0#32

theorem endsWith_failedAt (e : ErrCode) (s : State) : EndsWith (failedAt e s) (.error (e, s.offset.toNat)) :=
  ⟨rfl, rfl, rfl, rfl, rfl⟩

/-- A step of a run and a round of the loop fail alike, or accept the same packet (R172, R189). -/
inductive SameRound (s : State) (fuel : Nat) (out : List Descriptor) : Prop where
  | fails (e : ErrCode) (hstep : step s = .next (failedAt e s))
      (hround : decodeRest s (fuel + 1) out = .error (e, s.offset.toNat))
  | accepts (k : PacketClass) (hd : Header) (hfit : hd.declaredLength ≤ remaining s)
      (hstep : step s = .next (accept k hd s))
      (hround : decodeRest s (fuel + 1) out =
        if s.offset.toNat + hd.declaredLength = s.bufLen.toNat then .ok (out ++ [descriptorOf k hd s])
        else decodeAllFrom s.params s.frameOnly (runBuffer s) fuel (s.offset.toNat + hd.declaredLength)
          (out ++ [descriptorOf k hd s]))

/-- The engine's step on the word at OFFSET, and the loop's round on the same bytes, case by case (R172, R189). -/
theorem sameRound (hbusy : s.busy = true) (halone : LeftAlone s) (fuel : Nat) (out : List Descriptor) :
    SameRound s fuel out := by
  have hleft : (runBuffer s).length - s.offset.toNat = remaining s := by rw [runBuffer_length]; rfl
  have hengine := halone.step_of_busy hbusy
  rcases Nat.lt_or_ge (remaining s) 4 with hshort | hfour
  · refine .fails .invalidHeader (hengine.trans (engineStep_of_short hbusy hshort)) ?_
    exact decodeAllFrom_of_short (by rwa [hleft])
  rw [engineStep_of_four hbusy hfour, exec_decodeHeaderWord] at hengine
  have hhd := headerAt_runBuffer hfour
  generalize Header.unpack (wordAtOffset s) = hd at hengine hhd
  rcases Nat.lt_or_ge (remaining s) hd.declaredLength with hlong | hfit
  · rw [frameClassified_of_truncated hlong] at hengine
    exact .fails .packetTooShort hengine (decodeAllFrom_of_truncated hhd (by rwa [hleft]) (by rwa [hleft]))
  have hfitBuffer : hd.declaredLength ≤ (runBuffer s).length - s.offset.toNat := by rwa [hleft]
  match hclass : classify s.params.fbFormatMap s.params.unknownPtCode hd.pt hd.c with
  | .error e =>
    rw [hclass, frameClassified_of_rejected (classify_error_ne_ok hclass) hfit] at hengine
    exact .fails e hengine (decodeAllFrom_of_rejected hhd hfitBuffer hclass)
  | .ok k =>
    rw [hclass] at hengine
    have hverdict := verdict_runBuffer k hfit
    by_cases hok : verdict k hd.declaredLength s = .ok
    · refine .accepts k hd hfit (hengine.trans (congrArg _ (frameAs_of_ok hfit hok))) ?_
      rw [decodeRest, decodeAllFrom_of_ok hhd hfitBuffer hclass (hverdict.trans hok), runBuffer_length,
        decodedPacket_runBuffer k hhd hfit]
    · exact .fails _ (hengine.trans (congrArg _ (frameAs_of_not_ok hfit hok)))
        (decodeAllFrom_of_not_ok hhd hfitBuffer hclass hverdict hok)

/-- A packet that fits leaves OFFSET within the buffer, so neither it nor PKT_COUNT wraps. -/
theorem Decoding.counters (h : Decoding s out) {hd : Header} (hfit : hd.declaredLength ≤ remaining s) :
    (s.offset + BitVec.ofNat 32 hd.declaredLength).toNat = s.offset.toNat + hd.declaredLength ∧
      (s.pktCount + 1#32).toNat = out.length + 1 ∧ s.offset.toNat + hd.declaredLength ≤ s.bufLen.toNat := by
  have hbelow := h.below
  have hcount := h.count
  have hfits := h.fits
  have hmax := s.bufLen.isLt
  unfold remaining at hfit
  refine ⟨?_, ?_, by omega⟩ <;> simp only [BitVec.toNat_add, BitVec.toNat_ofNat] <;> omega

/-- The accepted packet is listed after those before it (R176). -/
theorem Decoding.listed_accept (h : Decoding s out) (k : PacketClass) (hd : Header) (i : Nat) (d : Descriptor)
    (hi : (out ++ [descriptorOf k hd s])[i]? = some d) : Cells.lookup (accept k hd s).dtab i = some d := by
  obtain ⟨hdtab, -⟩ := accept_fields k hd s
  rw [hdtab, h.count]
  rcases Nat.lt_trichotomy i out.length with hlt | rfl | hgt
  · rw [List.getElem?_append_left hlt] at hi
    rw [Cells.lookup_insert_other _ _ (Nat.ne_of_lt hlt)]
    exact h.listed i d hi
  · rw [List.getElem?_concat_length] at hi
    rw [Cells.lookup_insert_same, hi]
  · rw [List.getElem?_eq_none (by simp; omega)] at hi
    cases hi

/-- At the buffer's end the run is over with all packets (R176, R189). -/
theorem Decoding.endsWith_accept (h : Decoding s out) (k : PacketClass) {hd : Header}
    (hfit : hd.declaredLength ≤ remaining s) (hend : s.offset.toNat + hd.declaredLength = s.bufLen.toNat) :
    EndsWith (accept k hd s) (.ok (out ++ [descriptorOf k hd s])) := by
  obtain ⟨-, hcount, -⟩ := accept_fields k hd s
  obtain ⟨-, hnoWrap, -⟩ := h.counters hfit
  rcases accept_control k hd s with ⟨-, hover, hdone, herr, herrOffset⟩ | ⟨hmore, -⟩
  · exact ⟨hover, hdone, herr, herrOffset, by rw [hcount, hnoWrap]; simp, h.listed_accept k hd⟩
  · exact absurd hend hmore

/-- Before the buffer's end the run goes on with one packet more (R176). -/
theorem Decoding.accept (h : Decoding s out) (k : PacketClass) {hd : Header} (hfit : hd.declaredLength ≤ remaining s)
    (hmore : s.offset.toNat + hd.declaredLength ≠ s.bufLen.toNat) :
    Decoding (accept k hd s) (out ++ [descriptorOf k hd s]) := by
  obtain ⟨-, hcount, hoffset, hbufLen, -⟩ := accept_fields k hd s
  obtain ⟨hnoWrap, hnoWrapCount, hend⟩ := h.counters hfit
  obtain ⟨hmin, -, -⟩ := hd.declaredLength_range
  have hfits := h.fits
  rcases accept_control k hd s with ⟨hends, -⟩ | ⟨-, hgoesOn, -⟩
  · exact absurd hends hmore
  · exact
      { busy := hgoesOn.trans h.busy
        alone := h.alone.of_sameWorld (FrameResult.accepts k hd hfit).keeps.world
        below := by rw [hoffset, hbufLen, hnoWrap]; omega
        count := by rw [hcount, hnoWrapCount]; simp
        fits := by rw [hoffset, hnoWrap, List.length_append, List.length_singleton]; omega
        listed := h.listed_accept k hd }

/-- Acceptance leaves the loop's input as it was, and OFFSET where the loop goes on (R39, R40, R189). -/
theorem Decoding.decodeRest_accept (h : Decoding s out) (k : PacketClass) {hd : Header}
    (hfit : hd.declaredLength ≤ remaining s) (fuel : Nat) (out' : List Descriptor) :
    decodeRest (Machine.accept k hd s) fuel out' =
      decodeAllFrom s.params s.frameOnly (runBuffer s) fuel (s.offset.toNat + hd.declaredLength) out' := by
  obtain ⟨-, -, hoffset, hbufLen, hframeOnly, hibuf, hparams⟩ := accept_fields k hd s
  obtain ⟨-, -, -, -, -, hresets, -⟩ := accept_frame k hd s
  obtain ⟨hnoWrap, -, -⟩ := h.counters hfit
  have hbuffer : runBuffer (Machine.accept k hd s) = runBuffer s := by
    rw [runBuffer, runBuffer, hbufLen, memRead_congr hibuf hresets]
  rw [decodeRest, hparams, hframeOnly, hbuffer, hoffset, hnoWrap]

/-- A run with fewer than 4 n bytes left ends within n steps with what the loop makes of the rest of the buffer (R178,
R189). -/
theorem run_endsWith (n : Nat) : ∀ {s : State} {out : List Descriptor}, Decoding s out → remaining s < 4 * n →
    ∃ t, Host.Core.run core n s = .next t ∧ EndsWith t (decodeRest s n out) := by
  induction n with
  | zero => intro s out _ hleft; exact absurd hleft (Nat.not_lt_zero _)
  | succ n ih =>
    intro s out h hleft
    cases sameRound h.busy h.alone n out with
    | fails e hstep hround =>
      have halone : LeftAlone (failedAt e s) := ⟨h.alone.host, h.alone.sched⟩
      rw [run_succ hstep, hround]
      exact ⟨_, halone.run_of_idle rfl n, endsWith_failedAt e s⟩
    | accepts k hd hfit hstep hround =>
      rw [run_succ hstep, hround]
      split_ifs with hend
      · obtain ⟨hover, hresult⟩ := h.endsWith_accept k hfit hend
        have halone := h.alone.of_sameWorld (FrameResult.accepts k hd hfit).keeps.world
        exact ⟨_, halone.run_of_idle hover n, hover, hresult⟩
      · have hnext := h.accept k hfit hend
        rw [← h.decodeRest_accept k hfit]
        refine ih hnext ?_
        obtain ⟨-, -, hoffset, hbufLen, -⟩ := accept_fields k hd s
        obtain ⟨hnoWrap, -, hinside⟩ := h.counters hfit
        obtain ⟨hmin, -, -⟩ := hd.declaredLength_range
        unfold remaining at hleft ⊢
        rw [hoffset, hbufLen, hnoWrap]
        omega

/-- START on a buffer that is not empty begins a run at OFFSET 0 without packets (R170). -/
theorem decoding_start (f : Bool) (halone : LeftAlone s) (hnonempty : s.bufLen ≠ 0#32) :
    Decoding (setBusy (clearRun f s)) [] where
  busy := rfl
  alone := ⟨halone.host, halone.sched⟩
  below := Nat.pos_of_ne_zero fun hzero => hnonempty (BitVec.eq_of_toNat_eq hzero)
  count := rfl
  fits := Nat.le_refl _
  listed := by simp

/-- DECODE_ALL of a buffer that is not empty is its loop from offset 0 (R189). -/
theorem decodeAll_of_nonempty (f : Bool) (hnonempty : s.bufLen ≠ 0#32) :
    decodeAll s.params f (runBuffer s) = decodeRest (setBusy (clearRun f s)) (s.bufLen.toNat / 4 + 1) [] := by
  have hlength : (runBuffer s).length ≠ 0 := by
    rw [runBuffer_length]
    exact fun hzero => hnonempty (BitVec.eq_of_toNat_eq hzero)
  have hbuffer : runBuffer (setBusy (clearRun f s)) = runBuffer s :=
    memRead_congr (s := s) (t := setBusy (clearRun f s)) rfl rfl 0 s.bufLen.toNat
  rw [decodeAll, if_neg hlength, decodeRest, hbuffer, runBuffer_length]
  rfl

theorem decodeAll_of_empty (f : Bool) (hempty : s.bufLen = 0#32) :
    decodeAll s.params f (runBuffer s) = .error (.invalidHeader, 0) :=
  if_pos (by rw [runBuffer_length, hempty]; rfl)

/-- START and the engine's steps end with DECODE_ALL of the buffer (R189). -/
theorem start_run_endsWith (f : Bool) (halone : LeftAlone s) :
    ∃ t, Host.Core.run core (s.bufLen.toNat / 4 + 1) (startRun f s) = .next t ∧
      EndsWith t (decodeAll s.params f (runBuffer s)) := by
  by_cases hempty : s.bufLen = 0#32
  · have haloneAfter : LeftAlone (startRun f s) := by
      rw [startRun_of_empty f hempty]; exact ⟨halone.host, halone.sched⟩
    rw [decodeAll_of_empty f hempty]
    refine ⟨_, haloneAfter.run_of_idle ?_ _, ?_⟩ <;> rw [startRun_of_empty f hempty]
    · rfl
    · exact ⟨rfl, rfl, rfl, rfl, rfl⟩
  · rw [startRun_of_nonempty f hempty, decodeAll_of_nonempty f hempty]
    refine run_endsWith _ (decoding_start f halone hempty) ?_
    show s.bufLen.toNat - 0 < 4 * (s.bufLen.toNat / 4 + 1)
    omega

/-- Settles O54: START finishes an empty buffer as DECODE_ALL does, and begins a run of any other, which ends with what
DECODE_ALL's loop makes of the buffer. -/
theorem runComputesDecodeAll : Obligations.RunComputesDecodeAll := by
  intro s f hidle hhost hsched
  obtain ⟨t, hrun, hover, hdone, hresult⟩ := start_run_endsWith f ⟨hhost, hsched⟩
  exact ⟨_, t, exec_start_of_idle f hidle, hrun, hover, hdone, hresult⟩

end Sys2Proof.Machine

namespace Sys2Proof.Machine

/-- Settles O24: with the P bit the detector tests the last byte, and without it the count is 0 and never valid. -/
theorem padDetectorReports : Obligations.PadDetectorReports := by
  intro p dl last
  by_cases hp : p = 1#1
  · rw [padDetect_of_p hp]
    simp [hp]
  · rw [padDetect_of_not_p hp]
    simp [hp]

end Sys2Proof.Machine

namespace Sys2Proof.Machine

/-! ### LEN_ENCODE (R231)

One equation per kind of size; `packetSize_cases` says that the three kinds cover all sizes. -/

section LengthField

variable {size : Word}

/-- Every size is no legal packet size, past the largest one, or the declared length of some Length (R95, R231). -/
theorem packetSize_cases (size : Word) :
    (size.toNat = 0 ∨ size.toNat % 4 ≠ 0) ∨ (size.toNat % 4 = 0 ∧ 262144 < size.toNat) ∨
      ∃ l : BitVec 16, size.toNat = (l.toNat + 1) * 4 := by
  by_cases hbad : size.toNat = 0 ∨ size.toNat % 4 ≠ 0
  · exact .inl hbad
  by_cases hlong : 262144 < size.toNat
  · exact .inr (.inl ⟨by omega, hlong⟩)
  · refine .inr (.inr ⟨BitVec.ofNat 16 (size.toNat / 4 - 1), ?_⟩)
    rw [BitVec.toNat_ofNat, Nat.mod_eq_of_lt (by omega)]
    omega

theorem lenEncode_of_bad (hbad : size.toNat = 0 ∨ size.toNat % 4 ≠ 0) : lenEncode size = .error .badLength :=
  if_pos (hbad.imp_left fun hzero => BitVec.eq_of_toNat_eq hzero)

theorem lenEncode_of_not_bad (hzero : size.toNat ≠ 0) (hfour : size.toNat % 4 = 0) :
    lenEncode size =
      if 262144 < size.toNat then .error .lengthOverflow else .ok (BitVec.ofNat 16 (size.toNat / 4 - 1)) :=
  if_neg fun hbad => hbad.elim (fun h => hzero (congrArg BitVec.toNat h)) (fun h => h hfour)

theorem lenEncode_of_long (hfour : size.toNat % 4 = 0) (hlong : 262144 < size.toNat) :
    lenEncode size = .error .lengthOverflow := by
  rw [lenEncode_of_not_bad (by omega) hfour, if_pos hlong]

theorem lenEncode_of_length {l : BitVec 16} (hsize : size.toNat = (l.toNat + 1) * 4) : lenEncode size = .ok l := by
  have hl := l.isLt
  have hquot : size.toNat / 4 - 1 = l.toNat := by omega
  rw [lenEncode_of_not_bad (by omega) (by omega), if_neg (by omega), hquot, BitVec.ofNat_toNat, BitVec.setWidth_eq]

/-- Settles O28: each kind of size has its own outcome, and no size is of two kinds. -/
theorem lengthFieldOfSize : Obligations.LengthFieldOfSize := by
  intro size
  refine ⟨fun l => ⟨lenEncode_ok, lenEncode_of_length⟩, ?_⟩
  rcases packetSize_cases size with hbad | ⟨hfour, hlong⟩ | ⟨l, hsize⟩
  · rw [lenEncode_of_bad hbad]
    simp only [Except.error.injEq, reduceCtorEq, true_iff, false_iff]
    omega
  · rw [lenEncode_of_long hfour hlong]
    simp only [Except.error.injEq, reduceCtorEq, true_iff, false_iff]
    omega
  · have hl := l.isLt
    rw [lenEncode_of_length hsize]
    simp only [reduceCtorEq, false_iff]
    omega

end LengthField

/-! ### ENC_APPEND and ENC_CLEAR, an equation per case (R232 to R238) -/

section EncodeCommands

variable {s t : State} {size : Word}

@[simp] theorem exec_encClear (s : State) : exec .encClear s = .next (encReset .ok s) := rfl

theorem exec_encAppend_of_failed (hfailed : s.encErr ≠ .ok) (size : Word) : exec (.encAppend size) s = .next s :=
  congrArg _ (if_neg hfailed)

theorem exec_encAppend_of_ok (hok : s.encErr = .ok) (size : Word) :
    exec (.encAppend size) s = .next (appendPacket size s) :=
  congrArg _ (if_pos hok)

theorem appendPacket_of_error {e : ErrCode} (hlen : lenEncode size = .error e) (s : State) :
    appendPacket size s = encReset e s := by
  simp only [appendPacket, hlen, encFail]

theorem appendPacket_of_ok {l : BitVec 16} (hlen : lenEncode size = .ok l) (s : State) :
    appendPacket size s =
      if s.params.maxObuf.toNat < s.encOffset.toNat + size.toNat then encReset .lengthOverflow s
      else recordAppend (encHeader s.encFields l).pack size s := by
  simp only [appendPacket, hlen, encFail]

/-- What ENC_APPEND leaves where no error is set (R233): an error and no output, or one more packet that fits. -/
theorem exec_encAppend_cases (hok : s.encErr = .ok) (ht : exec (.encAppend size) s = .next t) :
    (∃ e, e ≠ .ok ∧ t = encReset e s) ∨
      ∃ l : BitVec 16, size.toNat = (l.toNat + 1) * 4 ∧
        s.encOffset.toNat + size.toNat ≤ s.params.maxObuf.toNat ∧
        t = recordAppend (encHeader s.encFields l).pack size s := by
  rw [exec_encAppend_of_ok hok, Host.Outcome.next.injEq] at ht
  subst ht
  rcases appendPacket_cases size s with ⟨e, he, heq⟩ | ⟨l, hlen, hfits, heq⟩
  · exact .inl ⟨e, by rcases he with rfl | rfl <;> simp, heq⟩
  · exact .inr ⟨l, lenEncode_ok hlen, hfits, heq⟩

/-- An append that leaves no error has recorded one more packet, which fits (R233). -/
theorem exec_encAppend_success (hok : s.encErr = .ok) (ht : exec (.encAppend size) s = .next t)
    (hok' : t.encErr = .ok) :
    ∃ l : BitVec 16, size.toNat = (l.toNat + 1) * 4 ∧
      s.encOffset.toNat + size.toNat ≤ s.params.maxObuf.toNat ∧
      t = recordAppend (encHeader s.encFields l).pack size s := by
  rcases exec_encAppend_cases hok ht with ⟨e, he, rfl⟩ | hrecorded
  · exact absurd hok' he
  · exact hrecorded

/-- The header word is the upper half of ENC_FIELDS over the Length (R90, R233). -/
theorem pack_encHeader (fields : Word) (l : BitVec 16) : (encHeader fields l).pack = fields.extractLsb' 16 16 ++ l := by
  have hupper : fields.extractLsb' 16 16 = (Header.unpack fields).pack.extractLsb' 16 16 := by
    rw [Header.pack_unpack_eq]
  rw [hupper]
  exact congrArg (· ++ l) (BitVec.extractLsb'_append_eq_left (w := 16)).symm

/-- Settles O29: a declared length has its Length field, and a size that fits is recorded under it. -/
theorem appendFramesPacket : Obligations.AppendFramesPacket := by
  intro s l hok hfits
  have hl := l.isLt
  have hsize : (BitVec.ofNat 32 ((l.toNat + 1) * 4)).toNat = (l.toNat + 1) * 4 := by
    rw [BitVec.toNat_ofNat, Nat.mod_eq_of_lt (by omega)]
  rw [exec_encAppend_of_ok hok, appendPacket_of_ok (lenEncode_of_length hsize), hsize,
    if_neg (Nat.not_lt.mpr hfits), pack_encHeader]
  rfl

/-- The state an encode error leaves is the one the model's stop primitive leaves (R236). -/
theorem encReset_eq_encodeFailedWith (e : ErrCode) (s : State) : encReset e s = encodeFailedWith e s := rfl

/-- Settles O30: LEN_ENCODE fails on the first two kinds of size, and the capacity check on one that has a Length. -/
theorem appendFailsWithCode : Obligations.AppendFailsWithCode := by
  intro s size hok
  simp only [exec_encAppend_of_ok hok, ← encReset_eq_encodeFailedWith]
  refine ⟨fun hbad => ?_, fun hfour hlong => ?_, fun hzero hfour hshort hfull => ?_⟩
  · rw [appendPacket_of_error (lenEncode_of_bad hbad)]
  · rw [appendPacket_of_error (lenEncode_of_long hfour hlong)]
  · have hlen := lenEncode_of_not_bad hzero hfour
    rw [if_neg (Nat.not_lt.mpr hshort)] at hlen
    rw [appendPacket_of_ok hlen, if_pos hfull]

/-- Settles O33: a successful append packs ENC_FIELDS' header with the size's Length, and unpacking gives it back. -/
theorem encodedHeaderDeclaresSize : Obligations.EncodedHeaderDeclaresSize := by
  intro s t size hok ht hok'
  obtain ⟨l, hsize, -, rfl⟩ := exec_encAppend_success hok ht hok'
  rw [recordAppend_encHdr, Header.unpack_pack_eq]
  exact ⟨hsize.symm, rfl⟩

end EncodeCommands

/-! ### A set ENC_ERR is sticky (R232, R234) -/

section StickyError

variable {s t : State} {i : Instr}

/-- What stands for no header is one of the three commands (R97, R99). -/
theorem command_of_headerUnder_none {m : FbFormatMap} (hi : i.headerUnder m = none) :
    (∃ f, i = .start f) ∨ i = .encClear ∨ ∃ size, i = .encAppend size := by
  cases i with
  | start f => exact .inl ⟨f, rfl⟩
  | encClear => exact .inr (.inl rfl)
  | encAppend size => exact .inr (.inr ⟨size, rfl⟩)
  | sr | rr | sdes | bye | app | tlfbNack | psfbPli | psfbFir | psfbRrr | xr | tlfbUnregistered | psfbUnregistered
  | unknownPt => cases hi

/-- START leaves ENC_ERR alone (R170, R230). -/
theorem exec_start_encErr {f : Bool} (ht : exec (.start f) s = .next t) : t.encErr = s.encErr := by
  cases hbusy : s.busy with
  | true =>
    rw [exec_start_of_busy f hbusy] at ht
    cases ht
    rfl
  | false =>
    rw [exec_start_of_idle f hbusy] at ht
    cases ht
    rcases startRun_cases f s with ⟨-, heq⟩ | ⟨-, heq⟩ <;> simp [heq]

/-- Header instructions and START leave ENC_ERR alone, and ENC_APPEND does where it is set (R230, R234). -/
theorem exec_keeps_encErr (hfailed : s.encErr ≠ .ok) (hclear : i ≠ .encClear) (ht : exec i s = .next t) :
    t.encErr = s.encErr := by
  cases hi : i.headerUnder s.params.fbFormatMap with
  | some h => exact (exec_headerUnder hi ht).keeps.encode.encErr
  | none =>
    rcases command_of_headerUnder_none hi with ⟨f, rfl⟩ | rfl | ⟨size, rfl⟩
    · exact exec_start_encErr ht
    · exact absurd rfl hclear
    · rw [exec_encAppend_of_failed hfailed] at ht
      cases ht
      rfl

/-- Settles O31: a set error stops the append and survives all but ENC_CLEAR, and the failing append
resets the output. -/
theorem appendIgnoredOnceFailed : Obligations.AppendIgnoredOnceFailed := by
  refine ⟨fun s size hfailed => exec_encAppend_of_failed hfailed size,
    fun s t i hfailed hclear ht => exec_keeps_encErr hfailed hclear ht, fun s t size hok ht hfailed => ?_⟩
  rcases exec_encAppend_cases hok ht with ⟨e, -, rfl⟩ | ⟨l, -, -, rfl⟩
  · exact ⟨rfl, rfl⟩
  · exact absurd hok hfailed

/-- Settles O32: ENC_CLEAR is the reset of the encode registers without an error, the write to ENC_CTRL decodes to it,
and every other instruction keeps a set ENC_ERR. -/
theorem clearStartsNewOutput : Obligations.ClearStartsNewOutput := by
  refine ⟨exec_encClear, fun s w hbit => ?_, fun s t i hfailed ht hok => ?_⟩
  · have hdecode : decodeCsrWrite 0x20#8 w = .ok .encClear := if_pos hbit
    rw [hostAccess_csrWrite, hdecode]
  · by_contra hclear
    exact hfailed ((exec_keeps_encErr hfailed hclear ht).symm.trans hok)

end StickyError

/-! ### The encode unit and the decode engine are independent (R230) -/

section Independence

variable {s s' t : State} {i : Instr}

/-- The frame of an encode command (R230): the decode engine, the world outside and ENC_FIELDS. -/
structure EncodeKeeps (s t : State) : Prop where
  decode : SameDecode s t
  world : SameWorld s t
  encFields : t.encFields = s.encFields

theorem EncodeKeeps.refl (s : State) : EncodeKeeps s s where
  decode := ⟨rfl, rfl, rfl, rfl, rfl, rfl, rfl, rfl, fun _ => rfl, fun _ _ => rfl⟩
  world := ⟨rfl, rfl, rfl, rfl, rfl⟩
  encFields := rfl

theorem encodeKeeps_encReset (e : ErrCode) (s : State) : EncodeKeeps s (encReset e s) where
  decode := ⟨rfl, rfl, rfl, rfl, rfl, rfl, rfl, rfl, readByte_congr rfl rfl, dtabWord_congr rfl rfl⟩
  world := ⟨rfl, rfl, rfl, rfl, rfl⟩
  encFields := rfl

theorem encodeKeeps_recordAppend (hdr size : Word) (s : State) : EncodeKeeps s (recordAppend hdr size s) where
  decode := ⟨rfl, rfl, rfl, rfl, rfl, rfl, rfl, rfl, readByte_congr rfl rfl, dtabWord_congr rfl rfl⟩
  world := ⟨rfl, rfl, rfl, rfl, rfl⟩
  encFields := rfl

theorem exec_encAppend_keeps {size : Word} (ht : exec (.encAppend size) s = .next t) : EncodeKeeps s t := by
  by_cases hok : s.encErr = .ok
  · rcases exec_encAppend_cases hok ht with ⟨e, -, rfl⟩ | ⟨l, -, -, rfl⟩
    · exact encodeKeeps_encReset e s
    · exact encodeKeeps_recordAppend _ size s
  · rw [exec_encAppend_of_failed hok] at ht
    cases ht
    exact .refl s

theorem SameEncode.encReset (h : SameEncode s s') (e : ErrCode) : SameEncode (encReset e s) (encReset e s') :=
  ⟨h.encFields, rfl, rfl, rfl, rfl⟩

theorem SameEncode.recordAppend (h : SameEncode s s') (hdr size : Word) :
    SameEncode (recordAppend hdr size s) (recordAppend hdr size s') where
  encFields := h.encFields
  encHdr := rfl
  encOffset := congrArg (· + size) h.encOffset
  encErr := h.encErr
  encCount := congrArg (· + 1#32) h.encCount

/-- An append reads the encode unit's own registers and MAX_OBUF only (R230, R233). -/
theorem SameEncode.appendPacket (h : SameEncode s s') (hobuf : s'.params.maxObuf = s.params.maxObuf) (size : Word) :
    SameEncode (appendPacket size s) (appendPacket size s') := by
  cases hlen : lenEncode size with
  | error e =>
    rw [appendPacket_of_error hlen, appendPacket_of_error hlen]
    exact h.encReset e
  | ok l =>
    rw [appendPacket_of_ok hlen, appendPacket_of_ok hlen, hobuf, h.encOffset, h.encFields]
    split
    · exact h.encReset .lengthOverflow
    · exact h.recordAppend _ size

theorem SameEncode.exec_encAppend {size : Word} {t' : State} (h : SameEncode s s')
    (hobuf : s'.params.maxObuf = s.params.maxObuf) (ht : exec (.encAppend size) s = .next t)
    (ht' : exec (.encAppend size) s' = .next t') : SameEncode t t' := by
  by_cases hok : s.encErr = .ok
  · rw [exec_encAppend_of_ok hok] at ht
    rw [exec_encAppend_of_ok (h.encErr.trans hok)] at ht'
    cases ht
    cases ht'
    exact h.appendPacket hobuf size
  · rw [exec_encAppend_of_failed hok] at ht
    rw [exec_encAppend_of_failed (h.encErr ▸ hok)] at ht'
    cases ht
    cases ht'
    exact h

/-- Settles O34: both encode commands keep the frame, and from equal encode registers leave equal ones. -/
theorem encodeIndependentOfDecode : Obligations.EncodeIndependentOfDecode := by
  intro s s' t t' i hi ht
  rcases hi with rfl | ⟨size, rfl⟩
  · rw [exec_encClear, Host.Outcome.next.injEq] at ht
    subst ht
    obtain ⟨hdecode, hworld, hfields⟩ := encodeKeeps_encReset .ok s
    refine ⟨hdecode, hworld, hfields, fun h _ ht' => ?_⟩
    rw [exec_encClear, Host.Outcome.next.injEq] at ht'
    exact ht' ▸ h.encReset .ok
  · obtain ⟨hdecode, hworld, hfields⟩ := exec_encAppend_keeps ht
    exact ⟨hdecode, hworld, hfields, fun h hobuf ht' => h.exec_encAppend hobuf ht ht'⟩

end Independence

/-! ### The sizes of successful appends add up (R235, R239) -/

section AppendSequences

variable {s : State} {size : Word}

/-- ENC_APPEND always completes, with the state `afterAppend` names. -/
theorem exec_encAppend (s : State) (size : Word) : exec (.encAppend size) s = .next (afterAppend s size) := rfl

theorem afterAppend_of_failed (hfailed : s.encErr ≠ .ok) (size : Word) : afterAppend s size = s :=
  if_neg hfailed

/-- Once an error is set, no sequence of appends has an effect (R234). -/
theorem foldl_afterAppend_of_failed (hfailed : s.encErr ≠ .ok) (sizes : List Word) : sizes.foldl afterAppend s = s :=
  List.foldl_fixed' (afterAppend_of_failed hfailed) sizes

/-- A successful append adds its size to ENC_OFFSET without wrapping, since MAX_OBUF is a word, and one to ENC_COUNT
(R233, R235). -/
theorem afterAppend_counters (hok : s.encErr = .ok) (hok' : (afterAppend s size).encErr = .ok) :
    (afterAppend s size).encOffset.toNat = s.encOffset.toNat + size.toNat ∧
      (afterAppend s size).encCount = s.encCount + 1#32 := by
  obtain ⟨l, -, hfits, heq⟩ := exec_encAppend_success hok (exec_encAppend s size) hok'
  have hobuf := s.params.maxObuf.isLt
  rw [heq]
  exact ⟨BitVec.toNat_add_of_lt (by omega), rfl⟩

/-- Settles O35, by induction on the sizes: the first append succeeds, for an error it set would stay to the end. -/
theorem appendedSizesAddUp : Obligations.AppendedSizesAddUp := by
  intro sizes
  induction sizes with
  | nil => intro s _ _; simp
  | cons size rest ih =>
    intro s hok hend
    rw [List.foldl_cons] at hend ⊢
    have hfirst : (afterAppend s size).encErr = .ok := by
      by_contra hfailed
      rw [foldl_afterAppend_of_failed hfailed] at hend
      exact hfailed hend
    obtain ⟨hoffset, hcount⟩ := afterAppend_counters hok hfirst
    obtain ⟨hoffsets, hcounts⟩ := ih (afterAppend s size) hfirst hend
    refine ⟨?_, ?_⟩
    · rw [hoffsets, hoffset, List.map_cons, List.sum_cons, Nat.add_assoc]
    · rw [hcounts, hcount, List.length_cons, Nat.add_comm rest.length, BitVec.ofNat_add, BitVec.add_assoc]

end AppendSequences

end Sys2Proof.Machine

namespace Sys2Proof.Machine

/-! ### The engine's stop primitive, and the block at rest (R303, R313) -/

variable {s : State}

/-- finish(OK, off) reports the packets accepted so far, and no error offset (R303). -/
theorem finish_ok (off : Word) (s : State) :
    finish .ok off s = { s with busy := false, done := true, err := .ok, errOffset := 0#32 } := rfl

/-- finish with an error records the offset it is given and reports no packet (R303). -/
theorem finish_error {code : ErrCode} (herr : code ≠ .ok) (off : Word) (s : State) :
    finish code off s =
      { s with busy := false, done := true, err := code, errOffset := off, offset := off, pktCount := 0#32 } := by
  simp only [finish, if_neg herr]

/-- Settles O26: the primitive by whether its code is OK. -/
theorem finishRecordsResult : Obligations.FinishRecordsResult := by
  intro code off s
  split_ifs with hcode
  · rw [hcode, finish_ok]
  · exact finish_error hcode off s

/-- With no action left the host does nothing (R350). -/
theorem hostStep_of_no_action (hhost : s.host = []) : hostStep s = .next s := by
  rw [hostStep, hhost]

/-- With no run in progress the engine's step is not enabled (R172). -/
theorem engineStep_of_idle (hidle : s.busy = false) : engineStep s = .next s :=
  if_neg (by simp [hidle])

/-- Settles O14: whichever agent is picked has nothing to do, and the pick is used up. -/
theorem idleBlockHoldsState : Obligations.IdleBlockHoldsState := by
  intro s hidle hhost
  rcases turn_cases s with ⟨hengine, -⟩ | ⟨hturn, -⟩
  · exact (step_engineTurn hengine).trans (engineStep_of_idle (s := afterPick s) hidle)
  · exact (step_hostTurn hturn).trans (hostStep_of_no_action (s := afterPick s) hhost)

end Sys2Proof.Machine

namespace Sys2Proof.Machine

/-! ### CSR writes by BUSY, and a START right after reset (R341, R355) -/

section CsrWritesByBusy

variable {s s' t t' : State} {off : BitVec 8} {w : Word}

/-- CTRL drops a START and a FRAME_ONLY bit alike while BUSY = 1 (R25, R170, R355). -/
theorem hostAccess_csrWrite_ctrl_of_busy (hbusy : s.busy = true) (w : Word) :
    hostAccess (.csrWrite 0x00#8 w) s = .next s := by
  obtain ⟨-, hstartWrite⟩ := startBeginsRunOrFinishes
  obtain ⟨hplainWrite, -⟩ := plainCsrWriteStoresField s w
  cases hstart : w.getLsbD 0 with
  | true => rw [hstartWrite s w hstart, exec_start_of_busy _ hbusy]
  | false => rw [hplainWrite hstart, if_pos hbusy]

/-- BUF_LEN drops every length while BUSY = 1 (R27, R355). -/
theorem hostAccess_csrWrite_bufLen_of_busy (hbusy : s.busy = true) (w : Word) :
    hostAccess (.csrWrite 0x08#8 w) s = .next s := by
  obtain ⟨-, hbufLen, -⟩ := plainCsrWriteStoresField s w
  rw [hbufLen, if_neg (by simp [hbusy])]

theorem hostAccess_csrWrite_encSize (w : Word) (s : State) :
    hostAccess (.csrWrite 0x28#8 w) s = exec (.encAppend w) s := rfl

/-- A write to an encode register reads the encode unit's own registers and MAX_OBUF only (R230, R355). -/
theorem SameEncode.hostAccess_csrWrite (h : SameEncode s s') (hobuf : s'.params.maxObuf = s.params.maxObuf)
    (hoff : off ∈ [0x20#8, 0x24#8, 0x28#8]) (ht : hostAccess (.csrWrite off w) s = .next t)
    (ht' : hostAccess (.csrWrite off w) s' = .next t') : SameEncode t t' := by
  obtain ⟨-, hclearWrite, -⟩ := clearStartsNewOutput
  obtain ⟨-, -, hfields, hencCtrl, -⟩ := plainCsrWriteStoresField s w
  obtain ⟨-, -, hfields', hencCtrl', -⟩ := plainCsrWriteStoresField s' w
  simp only [List.mem_cons, List.not_mem_nil, or_false] at hoff
  rcases hoff with rfl | rfl | rfl
  · cases hclear : w.getLsbD 0 with
    | true =>
      rw [hclearWrite _ w hclear] at ht ht'
      cases ht
      cases ht'
      exact h.encReset .ok
    | false =>
      rw [hencCtrl hclear] at ht
      rw [hencCtrl' hclear] at ht'
      cases ht
      cases ht'
      exact h
  · rw [hfields] at ht
    rw [hfields'] at ht'
    cases ht
    cases ht'
    exact { h with encFields := rfl }
  · rw [hostAccess_csrWrite_encSize] at ht ht'
    exact h.exec_encAppend hobuf ht ht'

/-- Settles O39: the two gated registers by BUSY, the read-only offsets by what plain writes store, and the encode
registers because BUSY is none of what they read. -/
theorem busyDropsControlWrites : Obligations.BusyDropsControlWrites := by
  refine ⟨fun s w hbusy => ⟨hostAccess_csrWrite_ctrl_of_busy hbusy w, hostAccess_csrWrite_bufLen_of_busy hbusy w⟩,
    fun s w off hoff => ?_, fun s t t' w off _ hoff ht ht' => ?_⟩
  · have hreadOnly : off ∉ [0x00#8, 0x08#8, 0x20#8, 0x24#8, 0x28#8] := by
      revert off
      decide
    obtain ⟨-, -, -, -, hignored⟩ := plainCsrWriteStoresField s w
    exact hignored off hreadOnly
  · have hsame : SameEncode { s with busy := false } s := ⟨rfl, rfl, rfl, rfl, rfl⟩
    exact hsame.hostAccess_csrWrite rfl hoff ht' ht

end CsrWritesByBusy

/-- Settles O44: BUF_LEN is 0 after reset, so START finishes at once and no byte of IBUF is read. -/
theorem startAfterResetFails : Obligations.StartAfterResetFails := by
  intro f mem
  have hidle : ({ State.reset with ibuf := mem } : State).busy = false := rfl
  have hempty : ({ State.reset with ibuf := mem } : State).bufLen = 0#32 := rfl
  rw [exec_start_of_idle f hidle, startRun_of_empty f hempty, finish_error (by decide)]
  rfl

end Sys2Proof.Machine
